-- ==== Sys2Proof/Word.lean ====
section
/-! DEFINITION. The word types of the block: their widths and nothing else (R9, R10, R90). -/

namespace Sys2Proof

/-- A 16-bit word: a pixel word (R9), a configuration register or a 16-bit counter (R10). -/
abbrev Word := BitVec 16

/-- A byte: a glyph row or a glyph code (R9, R10). -/
abbrev Byte := BitVec 8

/-- The 32-bit frame counter, and the width of the results of `START` and `RDFC` (R10, R101). -/
abbrev Word32 := BitVec 32

/-- The 64-bit operation word (R90). -/
abbrev OpWord := BitVec 64

end Sys2Proof
end

