-- ==== Sys2Proof/Config.lean ====
section
/-! DEFINITION. What an implementation fixes and the spec leaves open (R9 to R14): the parameters as plain data with
their constraints, the quantities derived from them, and the free values of the model (constants without a body). -/

namespace Sys2Proof

/-- A text cell: the one-bit "invert" flag and the 8-bit glyph code (R64). -/
structure TextCell where
  inv : Bool
  code : Byte
deriving DecidableEq, Repr, Inhabited

/-- The content variant of the instance and the parameters that only this variant has (R11, R12). `font` is the table
`FONT`, row-major: the byte of row `r` of code `k` stands at index `k * glyphH + r` (log entry 10). -/
inductive Content where
  | bitmap (fbRows : Nat)
  | text (textRows glyphH : Nat) (font : List Byte)
deriving DecidableEq, Repr

/-- The open parameters of R11. `hsyncActive`, `vsyncActive` and `pixActive` are read by no rule of the spec. -/
structure Params where
  /-- `CONTENT`, with `FB_ROWS`, or with `TEXT_ROWS`, `GLYPH_H` and `FONT`. -/
  content : Content
  /-- `H_VISIBLE`. -/
  hVisible : Nat
  /-- `FIFO_DEPTH`. -/
  fifoDepth : Nat
  /-- `GLYPH_UNKNOWN` (R67). -/
  glyphUnknown : Byte
  /-- `CHARSET`: a codepoint that is not listed is unmapped (R69). -/
  charset : List (Nat × Byte)
  /-- `TAB_INTERVAL`. -/
  tabInterval : Nat
  /-- `HSYNC_ACTIVE`. -/
  hsyncActive : Bool
  /-- `VSYNC_ACTIVE`. -/
  vsyncActive : Bool
  /-- `PIX_ACTIVE`. -/
  pixActive : Bool
deriving DecidableEq, Repr

/-- `WORD_BITS` (R9). -/
def wordBits : Nat := 16

/-- `GLYPH_W` (R9). -/
def glyphW : Nat := 8

/-- `GLYPH_BLANK` (R10). -/
def glyphBlank : Byte := 0

/-- `WPL`, the pixel words of a rendered line: `ceil(H_VISIBLE / 16)` (R14). -/
def Params.wpl (p : Params) : Nat := (p.hVisible + (wordBits - 1)) / wordBits

/-- `TEXT_COLS`, the text columns: `floor(H_VISIBLE / 8)` (R14). -/
def Params.textCols (p : Params) : Nat := p.hVisible / glyphW

/-- `1 <= n <= 65535`, the range of the sizes of R11. -/
def sizeOk (n : Nat) : Bool := decide (1 ≤ n) && decide (n ≤ 65535)

/-- The constraints of R11 on the variant's own parameters. The last clause of `text` is R70: `FONT(0, r) = 0x00`. -/
def Content.wf : Content → Bool
  | .bitmap fbRows => sizeOk fbRows
  | .text textRows glyphH font => sizeOk textRows && sizeOk glyphH && (font.take glyphH).all (· == 0)

/-- The "constraint" column of R11. -/
def Params.wf (p : Params) : Bool :=
  p.content.wf && sizeOk p.hVisible && decide (1 ≤ p.tabInterval) && decide (1 ≤ p.fifoDepth)

/-- The configuration record of an instance: parameters that meet their constraints (R11, R296 (e)). -/
abbrev Config := { p : Params // p.wf = true }

/-- The parameters of an implementation. OPEN in the spec (R11, D4): a constant without a body, so nothing can be
proved of it but what `Config` says. The argument only tells Lean that the type is inhabited (log entry 2). -/
opaque Config.choice [Inhabited Config] : Config

/-- The instance whose power-on state is `State.reset` (log entry 2). The parameters given here show that `Config` is
inhabited; they are NOT the value of this constant, which stays unknown. -/
def Config.instanceParams : Config :=
  @Config.choice ⟨⟨{ content := .bitmap 1, hVisible := 1, fifoDepth := 1, glyphUnknown := 0, charset := [],
                     tabInterval := 1, hsyncActive := true, vsyncActive := true, pixActive := true }, by decide⟩⟩

/-- What the word of `FB` under a key holds when nothing has written it since the `RESET` with the given number.
"unspecified: any values; a model draws them afresh at every RESET" (R53, V1). A free value (log entry 3). -/
opaque Config.fbDraw (draw key : Nat) : Word

/-- The same for a cell of `CELL` (R53, V1). A free value (log entry 3). -/
opaque Config.cellDraw (draw key : Nat) : TextCell

/-- The same for a word of the line buffer `RL` (R53, V1). A free value (log entry 4). -/
opaque Config.rlDraw (draw x : Nat) : Word

end Sys2Proof
end

