-- ==== Sys2Proof/Syntax.lean ====
section
/-! DEFINITION. The operations of the block, one constructor for each row of the opcode map (R96), with the agent,
the format and the mnemonic of each; and an operation as assembler text spells it (R102). -/

namespace Sys2Proof

/-- The five agents (R6). -/
inductive Agent where
  | env | ht | seq | out | host
deriving DecidableEq, Repr

/-- The three formats of an operation word: no operands, three operands, two operands (R92, R93, R94). -/
inductive Format where
  | n | x3 | x2
deriving DecidableEq, Repr

/-- The sixteen operations (R96). Operands are the 16-bit fields `x`, `y`, `z`, as they stand (R95). -/
inductive Instr where
  | reset
  | pclk
  | eva
  | evb
  | outw
  | cfgh (x y z : Word)
  | cfgv (x y z : Word)
  | cfgf (x y z : Word)
  | start
  | csenter
  | csexit
  | rdfc
  | fbwr (x y z : Word)
  | fbrd (x y : Word)
  | cellwr (x y z : Word)
  | cellrd (x y : Word)
deriving DecidableEq, Repr

/-- The mnemonic of R96. -/
def Instr.mnemonic : Instr → String
  | .reset => "RESET"
  | .pclk => "PCLK"
  | .eva => "EVA"
  | .evb => "EVB"
  | .outw => "OUTW"
  | .cfgh _ _ _ => "CFGH"
  | .cfgv _ _ _ => "CFGV"
  | .cfgf _ _ _ => "CFGF"
  | .start => "START"
  | .csenter => "CSENTER"
  | .csexit => "CSEXIT"
  | .rdfc => "RDFC"
  | .fbwr _ _ _ => "FBWR"
  | .fbrd _ _ => "FBRD"
  | .cellwr _ _ _ => "CELLWR"
  | .cellrd _ _ => "CELLRD"

/-- The format of R96. -/
def Instr.format : Instr → Format
  | .reset => .n
  | .pclk => .n
  | .eva => .n
  | .evb => .n
  | .outw => .n
  | .cfgh _ _ _ => .x3
  | .cfgv _ _ _ => .x3
  | .cfgf _ _ _ => .x3
  | .start => .n
  | .csenter => .n
  | .csexit => .n
  | .rdfc => .n
  | .fbwr _ _ _ => .x3
  | .fbrd _ _ => .x2
  | .cellwr _ _ _ => .x3
  | .cellrd _ _ => .x2

/-- The agent of R96: whose step the operation is (R6). -/
def Instr.agent : Instr → Agent
  | .reset => .env
  | .pclk => .ht
  | .eva => .seq
  | .evb => .out
  | .outw => .out
  | .cfgh _ _ _ => .host
  | .cfgv _ _ _ => .host
  | .cfgf _ _ _ => .host
  | .start => .host
  | .csenter => .host
  | .csexit => .host
  | .rdfc => .host
  | .fbwr _ _ _ => .host
  | .fbrd _ _ => .host
  | .cellwr _ _ _ => .host
  | .cellrd _ _ => .host

/-- The operands in the order `x`, `y`, `z` (R96). -/
def Instr.operands : Instr → List Word
  | .reset => []
  | .pclk => []
  | .eva => []
  | .evb => []
  | .outw => []
  | .cfgh x y z => [x, y, z]
  | .cfgv x y z => [x, y, z]
  | .cfgf x y z => [x, y, z]
  | .start => []
  | .csenter => []
  | .csexit => []
  | .rdfc => []
  | .fbwr x y z => [x, y, z]
  | .fbrd x y => [x, y]
  | .cellwr x y z => [x, y, z]
  | .cellrd x y => [x, y]

/-- How many operands a format has (R92, R93, R94). -/
def Format.arity : Format → Nat
  | .n => 0
  | .x3 => 3
  | .x2 => 2

/-- An operation as assembler text spells it: a mnemonic and the numbers after it (R102). Unlike an `Instr` it can be
ill-formed: an unknown mnemonic, a wrong number of operands, an operand of more than 16 bits. -/
structure SourceOp where
  name : List Char
  args : List Nat
deriving DecidableEq, Repr

end Sys2Proof
end

