-- ==== Sys2Proof/WellFormed.lean ====
section
/-! DEFINITION. The checks that refuse an ill-formed term: an operation word that spells no operation (R96 to R99), a
trace that holds one (R99), and an operation in assembler text with a wrong name, operand count or operand size (R95,
R102). An `Instr` needs no check, because its operands are 16-bit fields by type (R95); the parameters of an instance
are checked by `Params.wf` in Config (R11). -/

namespace Sys2Proof

/-- The opcode byte and the format of each row of the opcode map (R96). -/
def opcodeMap : List (Byte × Format) :=
  [(0x01, .n), (0x02, .n), (0x03, .n), (0x04, .n), (0x05, .n),
   (0x10, .x3), (0x11, .x3), (0x12, .x3), (0x13, .n), (0x14, .n), (0x15, .n), (0x16, .n),
   (0x20, .x3), (0x21, .x2), (0x22, .x3), (0x23, .x2)]

/-- The mask of a format (R96). -/
def Format.mask : Format → OpWord
  | .n => 0xFFFFFFFFFFFFFFFF
  | .x3 => 0xFFFF000000000000
  | .x2 => 0xFFFF00000000FFFF

/-- The match value of a row: `op << 56` (R96). -/
def matchWord (op : Byte) : OpWord := (op.setWidth 64) <<< 56

/-- The word matches the row: `w & mask = match` (R100). -/
def rowMatches (w : OpWord) (row : Byte × Format) : Bool := (w &&& row.2.mask) == matchWord row.1

/-- The word spells an operation: some row of the opcode map matches it (R97, R98, R100). -/
def OpWord.wf (w : OpWord) : Bool := opcodeMap.any (rowMatches w)

/-- A trace holds no invalid word (R99). -/
def traceWf (ws : List OpWord) : Bool := ws.all OpWord.wf

/-- The mnemonics in capitals with their formats (R96, R102). -/
def mnemonicMap : List (List Char × Format) :=
  [(['R','E','S','E','T'], .n), (['P','C','L','K'], .n), (['E','V','A'], .n), (['E','V','B'], .n),
   (['O','U','T','W'], .n), (['C','F','G','H'], .x3), (['C','F','G','V'], .x3), (['C','F','G','F'], .x3),
   (['S','T','A','R','T'], .n), (['C','S','E','N','T','E','R'], .n), (['C','S','E','X','I','T'], .n),
   (['R','D','F','C'], .n), (['F','B','W','R'], .x3), (['F','B','R','D'], .x2),
   (['C','E','L','L','W','R'], .x3), (['C','E','L','L','R','D'], .x2)]

/-- The format of the row a name stands for (R96). -/
def formatOfName (name : List Char) : Option Format := (mnemonicMap.find? fun r => r.1 == name).map (·.2)

/-- An operation in text is well-formed: its name is a row's, it has that row's number of operands, and each operand
fits a 16-bit field (R95, R96, R102). -/
def SourceOp.wf (o : SourceOp) : Bool :=
  match formatOfName o.name with
  | none => false
  | some f => o.args.length == f.arity && o.args.all fun a => decide (a < 65536)

end Sys2Proof
end

