-- ==== Sys2Proof/Decode.lean ====
section
/-! DEFINITION. The decoder of the 64-bit operation word, total and rejecting by name (R97 to R100), and the encoder
(R100), from the fields and formats of R91 to R96. -/

namespace Sys2Proof

/-- Field `op`, bits 63:56 (R91). -/
def opField (w : OpWord) : Byte := w.extractLsb' 56 8

/-- Field `f`, bits 55:48, zero in every operation (R91). -/
def fField (w : OpWord) : Byte := w.extractLsb' 48 8

/-- Field `x`, bits 47:32, the first operand (R91). -/
def xField (w : OpWord) : Word := w.extractLsb' 32 16

/-- Field `y`, bits 31:16, the second operand (R91). -/
def yField (w : OpWord) : Word := w.extractLsb' 16 16

/-- Field `z`, bits 15:0, the third operand (R91). -/
def zField (w : OpWord) : Word := w.extractLsb' 0 16

/-- Why a word spells no operation. -/
inductive DecodeReject where
  /-- The opcode is in no row of the opcode map (R97). -/
  | reservedOpcode (op : Byte)
  /-- The field `f`, or a field the format requires to be zero, is not zero (R98). -/
  | reservedField (op : Byte)
deriving DecidableEq, Repr

/-- The fields that the format requires to be zero are zero (R92, R93, R94, R98). -/
def zeroFieldsOk (fmt : Format) (w : OpWord) : Bool :=
  match fmt with
  | .n => fField w == 0#8 && xField w == 0#16 && yField w == 0#16 && zField w == 0#16
  | .x3 => fField w == 0#8
  | .x2 => fField w == 0#8 && zField w == 0#16

/-- The operation `i` of a word whose opcode is known, or the rejection of R98. -/
def checked (w : OpWord) (i : Instr) : Except DecodeReject Instr :=
  if zeroFieldsOk i.format w then .ok i else .error (.reservedField (opField w))

/-- Decoding of one operation word (R100): every word is exactly one operation, or is rejected. -/
def decode (w : OpWord) : Except DecodeReject Instr :=
  match opField w with
  | 0x01#8 => checked w .reset
  | 0x02#8 => checked w .pclk
  | 0x03#8 => checked w .eva
  | 0x04#8 => checked w .evb
  | 0x05#8 => checked w .outw
  | 0x10#8 => checked w (.cfgh (xField w) (yField w) (zField w))
  | 0x11#8 => checked w (.cfgv (xField w) (yField w) (zField w))
  | 0x12#8 => checked w (.cfgf (xField w) (yField w) (zField w))
  | 0x13#8 => checked w .start
  | 0x14#8 => checked w .csenter
  | 0x15#8 => checked w .csexit
  | 0x16#8 => checked w .rdfc
  | 0x20#8 => checked w (.fbwr (xField w) (yField w) (zField w))
  | 0x21#8 => checked w (.fbrd (xField w) (yField w))
  | 0x22#8 => checked w (.cellwr (xField w) (yField w) (zField w))
  | 0x23#8 => checked w (.cellrd (xField w) (yField w))
  | op => .error (.reservedOpcode op)

/-- The word with the given `op`, `x`, `y`, `z` and `f = 0`:
`(op << 56) | (x << 32) | (y << 16) | z` (R91, R100). -/
def assembleWord (op : Byte) (x y z : Word) : OpWord :=
  (op.setWidth 64 <<< 56) ||| (x.setWidth 64 <<< 32) ||| (y.setWidth 64 <<< 16) ||| z.setWidth 64

/-- The encoder (R96, R100). -/
def encode : Instr → OpWord
  | .reset => assembleWord 0x01#8 0#16 0#16 0#16
  | .pclk => assembleWord 0x02#8 0#16 0#16 0#16
  | .eva => assembleWord 0x03#8 0#16 0#16 0#16
  | .evb => assembleWord 0x04#8 0#16 0#16 0#16
  | .outw => assembleWord 0x05#8 0#16 0#16 0#16
  | .cfgh x y z => assembleWord 0x10#8 x y z
  | .cfgv x y z => assembleWord 0x11#8 x y z
  | .cfgf x y z => assembleWord 0x12#8 x y z
  | .start => assembleWord 0x13#8 0#16 0#16 0#16
  | .csenter => assembleWord 0x14#8 0#16 0#16 0#16
  | .csexit => assembleWord 0x15#8 0#16 0#16 0#16
  | .rdfc => assembleWord 0x16#8 0#16 0#16 0#16
  | .fbwr x y z => assembleWord 0x20#8 x y z
  | .fbrd x y => assembleWord 0x21#8 x y 0#16
  | .cellwr x y z => assembleWord 0x22#8 x y z
  | .cellrd x y => assembleWord 0x23#8 x y 0#16

/-- What the decoder reads from the low `nbits` bits of `w`, every bit above them zero. An operation is ONE 64-bit
word, so `w` is that word (R90, R91; log entry 15). -/
def decodeTableWord (nbits w : Nat) : Option Instr :=
  match decode (BitVec.ofNat 64 (w % 2 ^ nbits)) with
  | .ok i => some i
  | .error _ => none

end Sys2Proof
end

