-- ==== Sys2Proof/Machine/State.lean ====
section
/-! DEFINITION. The state of the block as plain data, grouped as R20 groups it, with the few fields that are the
model's own; the reasons a step can stop; the state after power-on (R53). -/

namespace Sys2Proof.Machine

/-- A memory: the elements that have been written, by key, keys strictly rising. The unit is the element of the
address space (a word of `FB`, a cell of `CELL`), because no space is byte-addressable (R60, R71, R72; log entry 9). An
unlisted key has no value: nothing has written it since the last `RESET`. -/
abbrev Memory (α : Type) := List (Nat × α)

/-- The canonical form: keys strictly rising, so that equal memories are equal lists. An unlisted key has no value,
so every listed entry differs from what an unlisted key holds. -/
def Memory.wf {α : Type} : Memory α → Bool
  | [] => true
  | [_] => true
  | (k, _) :: (l, v) :: m => decide (k < l) && Memory.wf ((l, v) :: m)

/-- The nine configuration registers: FrameTiming and `VSCALE` (R21 to R25). -/
structure FrameTiming where
  /-- `H_TOTAL`: pixel clocks in a scanline period (R23). -/
  hTotal : Word
  /-- `H_SYNC_END` (R23). -/
  hSyncEnd : Word
  /-- `H_DATA_START` (R24). -/
  hDataStart : Word
  /-- `V_SYNC` (R25). -/
  vSync : Word
  /-- `V_BACK` (R25). -/
  vBack : Word
  /-- `V_VISIBLE` (R25). -/
  vVisible : Word
  /-- `V_FRONT` (R25). -/
  vFront : Word
  /-- `V_TOTAL` (R25). -/
  vTotal : Word
  /-- `VSCALE` (R25). -/
  vScale : Word
deriving DecidableEq, Repr

/-- Control and status (R37, R38, R39). -/
structure Control where
  /-- `RUN` (R37). -/
  run : Bool
  /-- `HOLD` (R38). -/
  hold : Bool
  /-- `CFGERR`, the sticky mask (R39). -/
  cfgErr : BitVec 5
deriving DecidableEq, Repr

/-- The line sequencer (R29 to R32). -/
structure Sequencer where
  /-- `LINE` (R29). -/
  line : Word
  /-- `FRAME` (R30). -/
  frame : Word32
  /-- `VIS_VALID` with `VIS_IDX`, the document's `visible_line`, as an option value (R31). -/
  visibleLine : Option Word
  /-- `VSYNC`, the output bit (R32). -/
  vsync : Bool
deriving DecidableEq, Repr

/-- The horizontal timer (R34, R35). -/
structure HTimer where
  /-- `HCNT` (R34). -/
  hcnt : Word
  /-- `PEND_A` (R35). -/
  pendA : Bool
  /-- `PEND_B` (R35). -/
  pendB : Bool
deriving DecidableEq, Repr

/-- The clock-out progress (R41). -/
structure ClockOut where
  /-- `EMITTING` (R41). -/
  emitting : Bool
  /-- `OUT_IDX` (R41). -/
  outIdx : Word
deriving DecidableEq, Repr

/-- The shift-out FIFO and the shifter (R42, R43, R44). -/
structure Shifter where
  /-- The FIFO, head first (R42, R74). -/
  fifo : List Word
  /-- `SH_REG` (R43). -/
  shReg : Word
  /-- `SH_CNT`, `0 <= SH_CNT <= 16` (R43). -/
  shCnt : Fin 17
  /-- `PIX`, the output bit (R44). -/
  pix : Bool
deriving DecidableEq, Repr

/-- A value returned to the host: 32 bits by `START` and `RDFC`, 16 bits by `FBRD` and `CELLRD` (R101). -/
inductive HostResult where
  | word32 (v : Word32)
  | word16 (v : Word)
deriving DecidableEq, Repr

/-- The state (R20). The last four fields are the MODEL's own: the parameters of the instance, which no operation
writes (R20, R52; log entry 2), the number of `RESET` operations so far, which selects the free values of the
unspecified contents (R53; log entry 5), what the last operation returned to the host (R101; log entry 6), and the
operation words of the trace still to come (R90; log entry 1). -/
structure State where
  /-- The configuration registers (R22). -/
  timing : FrameTiming
  /-- `RUN`, `HOLD`, `CFGERR`. -/
  control : Control
  /-- `LINE`, `FRAME`, `VIS_VALID`, `VIS_IDX`, `VSYNC`. -/
  seq : Sequencer
  /-- `HCNT`, `PEND_A`, `PEND_B`. -/
  timer : HTimer
  /-- `RL`, the line buffer (R40): `WPL` words, or none when nothing has written it since the last `RESET`
  (log entry 4). -/
  rl : List Word
  /-- `EMITTING`, `OUT_IDX`. -/
  out : ClockOut
  /-- The FIFO, `SH_REG`, `SH_CNT`, `PIX`. -/
  shifter : Shifter
  /-- `FB`, the bitmap store, when `CONTENT = Bitmap` (R45). -/
  fb : Memory Word
  /-- `CELL`, the text store, when `CONTENT = Text` (R46). -/
  cell : Memory TextCell
  /-- `MISS`, the ghost bit (R51). -/
  miss : Bool
  /-- The parameters of the instance (R11). -/
  config : Config
  /-- How many `RESET` operations have occurred. -/
  draw : Nat
  /-- What the last operation returned to the host, if anything. -/
  result : Option HostResult
  /-- The operation words still to come, next first (R90). -/
  trace : List OpWord
deriving DecidableEq, Repr

/-- The reasons for a fault. There is none: "There is no other error, fault or exception" than the configuration
error, which `START` records in `CFGERR` and which is no stop, and the ghost bit `MISS` (R260, R278). Safe: no step of
the model faults. -/
inductive Fault
deriving DecidableEq, Repr

/-- The reasons for a refusal. -/
inductive Refusal where
  /-- Raised by an arm of `exec` that has no meaning yet; no arm raises it. Safe. -/
  | notModelled (mnemonic : String)
  /-- Raised by the meanings of `EVA`, `EVB` and `OUTW` in a state in which the operation is not enabled: it "is not a
  step of the machine in that state" (R17, R264). Safe: the spec has no such run. -/
  | notEnabled (i : Instr)
  /-- Raised by `step` on a word that spells no operation: "a model refuses a trace that contains one, naming the word"
  (R99). Safe: the spec has no such trace. -/
  | invalidWord (w : OpWord) (why : DecodeReject)
  /-- Raised by `step` when the trace is at its end: no operation is left to perform (R90; log entry 8). Safe. -/
  | traceEnded
deriving DecidableEq, Repr

/-- The state at power-on of an instance with parameters `c` (R53): every register, flag, counter and output is 0, the
FIFO is empty, the line buffer and the content store hold unspecified values (nothing is listed in them). -/
def State.powerOn (c : Config) : State where
  timing := { hTotal := 0#16, hSyncEnd := 0#16, hDataStart := 0#16, vSync := 0#16, vBack := 0#16, vVisible := 0#16,
              vFront := 0#16, vTotal := 0#16, vScale := 0#16 }
  control := { run := false, hold := false, cfgErr := 0#5 }
  seq := { line := 0#16, frame := 0#32, visibleLine := none, vsync := false }
  timer := { hcnt := 0#16, pendA := false, pendB := false }
  rl := []
  out := { emitting := false, outIdx := 0#16 }
  shifter := { fifo := [], shReg := 0#16, shCnt := 0, pix := false }
  fb := []
  cell := []
  miss := false
  config := c
  draw := 0
  result := none
  trace := []

/-- The state right after reset (R53), of the instance whose parameters the spec leaves open (log entry 2). -/
def State.reset : State := State.powerOn Config.instanceParams

end Sys2Proof.Machine
end

