-- ==== Sys2Proof/Machine/Operands.lean ====
section
/-! DEFINITION. The operand forms: the cell word of the host port (R64), the key of a stored element (R60, R61, R63),
the range tests of the address spaces (R60, R73), and the address of a pixel (R62). -/

namespace Sys2Proof.Machine

/-- The cell that a cell word stores: bit 15 is the invert flag, bits 7:0 the glyph code, bits 14:8 are discarded
(R64, R182). -/
def cellOfWord (z : Word) : TextCell := { inv := z.getLsbD 15, code := z.extractLsb' 0 8 }

/-- The cell word of a cell: `inv ++ 0b0000000 ++ code` (R64, R183). -/
def wordOfCell (c : TextCell) : Word := (BitVec.ofBool c.inv ++ (0#7 : BitVec 7) ++ c.code).cast (by decide)

/-- The key of the element in row `y` and column `x`. Coordinates below 65536 give different keys, and the keys of a
row rise with the column (R60; the numbering is the model's own, log entry 9). -/
def elemKey (y x : Nat) : Nat := y * 65536 + x

/-- (`y`, `x`) is a word of `FB`: `CONTENT = Bitmap`, `y < FB_ROWS`, `x < WPL` (R60, R180). -/
def inFb (p : Params) (y x : Nat) : Bool :=
  match p.content with
  | .bitmap fbRows => decide (y < fbRows) && decide (x < p.wpl)
  | .text _ _ _ => false

/-- (`y`, `x`) is a cell of `CELL`: `CONTENT = Text`, `y < TEXT_ROWS`, `x < TEXT_COLS` (R60, R182). -/
def inCell (p : Params) (y x : Nat) : Bool :=
  match p.content with
  | .bitmap _ => false
  | .text textRows _ _ => decide (y < textRows) && decide (x < p.textCols)

/-- `MemRead(FONT, code, r)`: the byte of row `r` of glyph `code` (R60, R65). The blank glyph's rows are 0 (R70). -/
def fontByte (glyphH : Nat) (font : List Byte) (code : Byte) (r : Nat) : Byte :=
  (font[code.toNat * glyphH + r]?).getD 0#8

/-- `word_index` of the pixel column `px` (R62). -/
def pixelWord (px : Nat) : Nat := px / 16

/-- The bit of its word that the pixel column `px` is: `15 - (px % 16)` (R62). -/
def pixelBit (px : Nat) : Nat := 15 - px % 16

end Sys2Proof.Machine
end

