-- ==== Sys2Proof/Machine/Flags.lean ====
section
/-! DEFINITION. The flags and derived signals: the bands (R121), `HSYNC` (R36), the FIFO's flags (R74, R163), the enabling
conditions (R264), the checks of `START` (R215), and the output triple (R8). -/

namespace Sys2Proof.Machine

/-- The four bands of a frame (R121). -/
inductive Band where
  | sync | backPorch | visible | frontPorch
deriving DecidableEq, Repr

/-- `V_SYNC + V_BACK`, the first visible scanline, on unbounded integers (R121, R250). -/
def FrameTiming.visibleFrom (t : FrameTiming) : Nat := t.vSync.toNat + t.vBack.toNat

/-- `V_SYNC + V_BACK + V_VISIBLE`, the first front-porch scanline, on unbounded integers (R121, R250). -/
def FrameTiming.visibleTo (t : FrameTiming) : Nat := t.visibleFrom + t.vVisible.toNat

/-- `band(n)` of a scanline number (R121). -/
def FrameTiming.band (t : FrameTiming) (n : Nat) : Band :=
  if n < t.vSync.toNat then .sync
  else if n < t.visibleFrom then .backPorch
  else if n < t.visibleTo then .visible
  else .frontPorch

/-- `HSYNC = 1` iff `RUN = 1` and `HCNT < H_SYNC_END` (R36). -/
def hsync (s : State) : Bool := s.control.run && decide (s.timer.hcnt.toNat < s.timing.hSyncEnd.toNat)

/-- The triple (`HSYNC`, `VSYNC`, `PIX`) of logical outputs (R8). -/
structure Sample where
  hsync : Bool
  vsync : Bool
  pix : Bool
deriving DecidableEq, Repr

/-- The outputs of a state (R8). -/
def sample (s : State) : Sample := { hsync := hsync s, vsync := s.seq.vsync, pix := s.shifter.pix }

/-- `FifoCount()` (R74). -/
def fifoCount (s : State) : Nat := s.shifter.fifo.length

/-- `SHIFT_OUT_READY()`, the "transmit FIFO not full" flag (R163). -/
def shiftOutReady (s : State) : Bool := decide (fifoCount s < s.config.val.fifoDepth)

/-- `EVA` is enabled (R264). -/
def evaEnabled (s : State) : Bool := s.control.run && s.timer.pendA && !s.control.hold && !s.out.emitting

/-- `EVB` is enabled (R264). -/
def evbEnabled (s : State) : Bool :=
  s.control.run && s.timer.pendB && !s.timer.pendA && !s.control.hold && !s.out.emitting

/-- `OUTW` is enabled (R264). -/
def outwEnabled (s : State) : Bool := s.control.run && s.out.emitting && shiftOutReady s

/-- The operation is enabled in the state: host-port operations, `PCLK` and `RESET` always are (R17). -/
def enabled (i : Instr) (s : State) : Bool :=
  match i with
  | .reset => true
  | .pclk => true
  | .eva => evaEnabled s
  | .evb => evbEnabled s
  | .outw => outwEnabled s
  | .cfgh _ _ _ => true
  | .cfgv _ _ _ => true
  | .cfgf _ _ _ => true
  | .start => true
  | .csenter => true
  | .csexit => true
  | .rdfc => true
  | .fbwr _ _ _ => true
  | .fbrd _ _ => true
  | .cellwr _ _ _ => true
  | .cellrd _ _ => true

/-- The condition of `E_VSUM`: the four counts do not add up to `V_TOTAL`, on unbounded integers (R215). -/
def FrameTiming.badSum (t : FrameTiming) : Bool :=
  decide (t.vSync.toNat + t.vBack.toNat + t.vVisible.toNat + t.vFront.toNat ≠ t.vTotal.toNat)

/-- The condition of `E_VZERO`: one of the four counts is zero (R215). -/
def FrameTiming.zeroCount (t : FrameTiming) : Bool :=
  t.vSync == 0#16 || t.vBack == 0#16 || t.vVisible == 0#16 || t.vFront == 0#16

/-- The condition of `E_HOFF`: an offset is not below `H_TOTAL` (R215). -/
def FrameTiming.badOffset (t : FrameTiming) : Bool :=
  decide (t.hTotal.toNat ≤ t.hSyncEnd.toNat) || decide (t.hTotal.toNat ≤ t.hDataStart.toNat)

/-- The condition of `E_VSCALE`: `VSCALE = 0` (R215). -/
def FrameTiming.zeroScale (t : FrameTiming) : Bool := t.vScale == 0#16

/-- The condition of `E_TEXTSCALE`: `CONTENT = Text` and `VSCALE != 1` (R146, R215). -/
def textScaled (p : Params) (t : FrameTiming) : Bool :=
  match p.content with
  | .bitmap _ => false
  | .text _ _ _ => t.vScale != 1#16

/-- The error bit `v` if the condition holds (R215). -/
def errBit (cond : Bool) (v : BitVec 5) : BitVec 5 := if cond then v else 0#5

/-- `CHECK()`: the bitwise OR of the bits whose condition holds (R215). -/
def checkMask (p : Params) (t : FrameTiming) : BitVec 5 :=
  errBit t.badSum 0x01#5 ||| errBit t.zeroCount 0x02#5 ||| errBit t.badOffset 0x04#5 ||| errBit t.zeroScale 0x08#5 |||
    errBit (textScaled p t) 0x10#5

/-- `E_REFUSED`, returned by `START` and never stored (R215, R261). -/
def eRefused : Word32 := 0x20#32

/-- What breaks a deadline when event A is raised (R266). -/
def missAtA (s : State) : Bool := s.timer.pendA || s.timer.pendB || s.out.emitting

/-- What breaks a deadline when event B is raised (R266). -/
def missAtB (s : State) : Bool := s.timer.pendA

end Sys2Proof.Machine
end

