-- ==== Sys2Proof/Machine/Ops.lean ====
section
/-! DEFINITION. The named operations over the state: memories, line buffer and FIFO (R60, R74), raising the two events and
acknowledging them (R263), raising the configuration error (R262), the result of an operation (R101), reset (R222). -/

namespace Sys2Proof.Machine

/-- What has been written under a key, if anything. -/
def Memory.read? {α : Type} : Memory α → Nat → Option α
  | [], _ => none
  | (k, v) :: m, a => if k = a then some v else Memory.read? m a

/-- Write one element, keeping the keys strictly rising. -/
def Memory.write {α : Type} : Memory α → Nat → α → Memory α
  | [], a, v => [(a, v)]
  | (k, w) :: m, a, v =>
    if a < k then (a, v) :: (k, w) :: m
    else if a = k then (a, v) :: m
    else (k, w) :: Memory.write m a v

/-- `MemRead(FB, y, x)` (R16, R60). A word that nothing has written since the last `RESET` is unspecified: a free value
(R53, R181; log entry 3). -/
def readFb (s : State) (y x : Nat) : Word :=
  (Memory.read? s.fb (elemKey y x)).getD (Config.fbDraw s.draw (elemKey y x))

/-- `MemWrite(FB, y, x, v)` (R16, R60). -/
def writeFb (s : State) (y x : Nat) (v : Word) : State := { s with fb := Memory.write s.fb (elemKey y x) v }

/-- `MemRead(CELL, y, x)` (R16, R60); unwritten cells as for `readFb`. -/
def readCell (s : State) (y x : Nat) : TextCell :=
  (Memory.read? s.cell (elemKey y x)).getD (Config.cellDraw s.draw (elemKey y x))

/-- `MemWrite(CELL, y, x, v)` (R16, R60). -/
def writeCell (s : State) (y x : Nat) (v : TextCell) : State :=
  { s with cell := Memory.write s.cell (elemKey y x) v }

/-- `MemRead(RL, 0, x)` (R60, R68). Before the first `RENDER` after a `RESET` the words are unspecified: free values
(R53, R293; log entry 4). -/
def readRl (s : State) (x : Nat) : Word := (s.rl[x]?).getD (Config.rlDraw s.draw x)

/-- The pixel in column `px` of stored row `py` of `FB` (R62). -/
def storedPixel (s : State) (px py : Nat) : Bool := (readFb s py (pixelWord px)).getLsbD (pixelBit px)

/-- `FifoPush(w)` (R74). -/
def fifoPush (sh : Shifter) (w : Word) : Shifter := { sh with fifo := sh.fifo ++ [w] }

/-- `FifoPop()`: the head and the FIFO without it; none when the FIFO is empty (R74). -/
def fifoPop? (sh : Shifter) : Option (Word × Shifter) :=
  match sh.fifo with
  | [] => none
  | w :: q => some (w, { sh with fifo := q })

/-- The operation returns `r` to the host, or nothing (R101). -/
def answer (s : State) (r : Option HostResult) : State := { s with result := r }

/-- Raising event A: `PEND_A <- 1`, with the ghost bit set if a deadline is broken (R201, R263, R266). An event raised
while its flag is set is lost (R35). -/
def raiseEventA (s : State) : State :=
  { s with miss := s.miss || missAtA s, timer := { s.timer with pendA := true } }

/-- Raising event B: `PEND_B <- 1`, with the ghost bit set if event A of the scanline still waits (R201, R263, R266). -/
def raiseEventB (s : State) : State :=
  { s with miss := s.miss || missAtB s, timer := { s.timer with pendB := true } }

/-- The first statement of `EVA`: the service of event A clears its pending flag and saves nothing else
(R120, R263, R267). -/
def acknowledgeA (s : State) : State := { s with timer := { s.timer with pendA := false } }

/-- The first statement of `EVB` (R160, R263, R267). -/
def acknowledgeB (s : State) : State := { s with timer := { s.timer with pendB := false } }

/-- `raise CfgError(m)`: `CFGERR <- m`, and nothing else changes (R262). -/
def raiseCfgError (s : State) (m : BitVec 5) : State := { s with control := { s.control with cfgErr := m } }

/-- The configuration registers may be written: `RUN = 0` and `CFGERR = 0` (R207). -/
def setupOpen (s : State) : Bool := !s.control.run && s.control.cfgErr == 0#5

/-- A configuration write: the new registers while setup is open, otherwise no change (R207). -/
def configure (s : State) (t : FrameTiming) : State := if setupOpen s then { s with timing := t } else s

/-- `RESET`: every piece of state takes the value of R53. The line buffer and the content store take values drawn
afresh; the parameters, and the operations of the trace still to come, are not state of the block (R52, R222). -/
def resetBlock (s : State) : State :=
  { State.powerOn s.config with draw := s.draw + 1, trace := s.trace }

end Sys2Proof.Machine
end

