-- ==== Sys2Proof/Machine/ClockOut.lean ====
section
/-! DEFINITION. The pixel clock-out driver: the operations `EVB` and `OUTW`, and the shifter's half of a pixel clock
(R160 to R166). -/

namespace Sys2Proof.Machine

/-- The service of event B: on a visible line the clock-out begins at word 0; otherwise nothing is emitted (R160). -/
def serviceB (s : State) : State :=
  if (acknowledgeB s).seq.visibleLine.isSome then
    { acknowledgeB s with out := { emitting := true, outIdx := 0#16 } }
  else acknowledgeB s

/-- `EVB` (R160, R264). -/
def execEvb (s : State) : Host.Outcome State Fault Refusal :=
  if evbEnabled s then .next (answer (serviceB s) none) else .refused (.notEnabled .evb)

/-- `SHIFT_OUT(w)`: a write to the shift-out data register, `FifoPush(w)` (R162). -/
def shiftOut (s : State) (w : Word) : State := { s with shifter := fifoPush s.shifter w }

/-- `OUT_IDX` steps to the next word, or the clock-out ends after the last one (R161). -/
def stepOutIdx (s : State) : State :=
  if s.out.outIdx.toNat + 1 = s.config.val.wpl then { s with out := { emitting := false, outIdx := 0#16 } }
  else { s with out := { s.out with outIdx := BitVec.ofNat 16 (s.out.outIdx.toNat + 1) } }

/-- One pass of the write loop of `emit` (R161). -/
def emitWord (s : State) : State := stepOutIdx (shiftOut s (readRl s s.out.outIdx.toNat))

/-- `OUTW` (R161, R264). -/
def execOutw (s : State) : Host.Outcome State Fault Refusal :=
  if outwEnabled s then .next (answer (emitWord s) none) else .refused (.notEnabled .outw)

/-- The reload of the shifter: when no bit is left and the FIFO is not empty, a word is popped (R164). -/
def shiftReload (sh : Shifter) : Shifter :=
  if sh.shCnt = 0 then
    match fifoPop? sh with
    | none => sh
    | some (w, sh') => { sh' with shReg := w, shCnt := 16 }
  else sh

/-- One bit leaves the shift register, most significant bit first; with nothing to shift, `PIX <- 0` (R164). -/
def shiftBit (sh : Shifter) : Shifter :=
  if 0 < sh.shCnt.val then
    { sh with pix := sh.shReg.getLsbD 15, shReg := sh.shReg <<< 1, shCnt := ⟨sh.shCnt.val - 1, by omega⟩ }
  else { sh with pix := false }

/-- `SHIFT_TICK` (R164). -/
def shiftTick (s : State) : State :=
  if s.control.run then { s with shifter := shiftBit (shiftReload s.shifter) } else s

end Sys2Proof.Machine
end

