-- ==== Sys2Proof/Machine/Environment.lean ====
section
/-! DEFINITION. The operation of the environment: `RESET` (R222). -/

namespace Sys2Proof.Machine

/-- `RESET` (R222). -/
def execReset (s : State) : Host.Outcome State Fault Refusal := .next (resetBlock s)

end Sys2Proof.Machine
end

