-- ==== Sys2Proof/Machine/HostControl.lean ====
section
/-! DEFINITION. The configuration and control operations of the host: `CFGH`, `CFGV`, `CFGF`, `START`, `CSENTER`, `CSEXIT`,
`RDFC` (R204 to R220). -/

namespace Sys2Proof.Machine

/-- `CFGH x, y, z` (R204). -/
def execCfgh (x y z : Word) (s : State) : Host.Outcome State Fault Refusal :=
  .next (answer (configure s { s.timing with hTotal := x, hSyncEnd := y, hDataStart := z }) none)

/-- `CFGV x, y, z` (R205). -/
def execCfgv (x y z : Word) (s : State) : Host.Outcome State Fault Refusal :=
  .next (answer (configure s { s.timing with vSync := x, vBack := y, vVisible := z }) none)

/-- `CFGF x, y, z` (R206). -/
def execCfgf (x y z : Word) (s : State) : Host.Outcome State Fault Refusal :=
  .next (answer (configure s { s.timing with vFront := x, vTotal := y, vScale := z }) none)

/-- The start state: the block begins at the last front-porch scanline of a frame, with every service idle (R216). -/
def startState (s : State) : State :=
  { s with
    control := { s.control with run := true }
    seq := { line := BitVec.ofNat 16 (s.timing.vTotal.toNat - 1), frame := 0#32, visibleLine := none, vsync := false }
    timer := { hcnt := 0#16, pendA := false, pendB := false }
    out := { emitting := false, outIdx := 0#16 }
    shifter := { fifo := [], shReg := 0#16, shCnt := 0, pix := false }
    miss := false }

/-- `START` with setup open: the mask of failed checks is recorded and returned, or the block runs (R210, R262). -/
def startChecked (s : State) (m : BitVec 5) : State :=
  if m = 0#5 then answer (startState s) (some (.word32 0#32))
  else answer (raiseCfgError s m) (some (.word32 (m.setWidth 32)))

/-- `START` (R210). -/
def execStart (s : State) : Host.Outcome State Fault Refusal :=
  .next (if setupOpen s then startChecked s (checkMask s.config.val s.timing)
         else answer s (some (.word32 eRefused)))

/-- `HOLD <- h` (R218, R219). -/
def setHold (s : State) (h : Bool) : State := { s with control := { s.control with hold := h } }

/-- `CSENTER` (R218). -/
def execCsenter (s : State) : Host.Outcome State Fault Refusal := .next (answer (setHold s true) none)

/-- `CSEXIT` (R219). -/
def execCsexit (s : State) : Host.Outcome State Fault Refusal := .next (answer (setHold s false) none)

/-- `RDFC` (R220). -/
def execRdfc (s : State) : Host.Outcome State Fault Refusal := .next (answer s (some (.word32 s.seq.frame)))

end Sys2Proof.Machine
end

