-- ==== Sys2Proof/Machine/HostPort.lean ====
section
/-! DEFINITION. The content-store host port: `FBWR`, `FBRD`, `CELLWR`, `CELLRD` (R180 to R185). -/

namespace Sys2Proof.Machine

/-- The bitmap write: out of range, or on the other variant, no change (R73, R180, R184). -/
def portWriteFb (s : State) (x y z : Word) : State :=
  if inFb s.config.val y.toNat x.toNat then writeFb s y.toNat x.toNat z else s

/-- `FBWR x, y, z` (R180). -/
def execFbwr (x y z : Word) (s : State) : Host.Outcome State Fault Refusal := .next (answer (portWriteFb s x y z) none)

/-- The bitmap read: out of range, or on the other variant, 0 (R73, R181, R184). -/
def portReadFb (s : State) (x y : Word) : Word :=
  if inFb s.config.val y.toNat x.toNat then readFb s y.toNat x.toNat else 0#16

/-- `FBRD x, y` (R181). -/
def execFbrd (x y : Word) (s : State) : Host.Outcome State Fault Refusal :=
  .next (answer s (some (.word16 (portReadFb s x y))))

/-- The text write: out of range, or on the other variant, no change (R73, R182, R184). -/
def portWriteCell (s : State) (x y z : Word) : State :=
  if inCell s.config.val y.toNat x.toNat then writeCell s y.toNat x.toNat (cellOfWord z) else s

/-- `CELLWR x, y, z` (R182). -/
def execCellwr (x y z : Word) (s : State) : Host.Outcome State Fault Refusal :=
  .next (answer (portWriteCell s x y z) none)

/-- The text read: out of range, or on the other variant, 0 (R73, R183, R184). -/
def portReadCell (s : State) (x y : Word) : Word :=
  if inCell s.config.val y.toNat x.toNat then wordOfCell (readCell s y.toNat x.toNat) else 0#16

/-- `CELLRD x, y` (R183). -/
def execCellrd (x y : Word) (s : State) : Host.Outcome State Fault Refusal :=
  .next (answer s (some (.word16 (portReadCell s x y))))

end Sys2Proof.Machine
end

