-- ==== Sys2Proof/Machine/Renderer.lean ====
section
/-! DEFINITION. The line renderer: the sub-operation `RENDER`, bitmap and text (R140 to R149). -/

namespace Sys2Proof.Machine

/-- A line of `WPL` zero words: a scanline beyond the content height (R149). -/
def blankLine (p : Params) : List Word := List.replicate p.wpl 0#16

/-- The words of stored row `r` of `FB`, copied verbatim (R141). -/
def bitmapRow (s : State) (r : Nat) : List Word := (List.range s.config.val.wpl).map fun w => readFb s r w

/-- `RENDER_BITMAP(i)`: the stored row `i / VSCALE`, or blank words beyond the content (R141, R142, R149). -/
def renderBitmap (s : State) (fbRows i : Nat) : List Word :=
  if i / s.timing.vScale.toNat < fbRows then bitmapRow s (i / s.timing.vScale.toNat) else blankLine s.config.val

/-- `CELLBYTE(tr, c, fr)`: the font byte of the cell in column `c`, complemented if the cell is inverted; blank beyond
the grid (R144). -/
def cellByte (s : State) (glyphH : Nat) (font : List Byte) (tr c fr : Nat) : Byte :=
  if s.config.val.textCols ≤ c then 0#8
  else
    let k := readCell s tr c
    let b := fontByte glyphH font k.code fr
    if k.inv then b ^^^ 0xFF#8 else b

/-- Word `w` of a text line: the even column's byte is the high byte, the odd column's the low byte (R143, R145). -/
def textWord (s : State) (glyphH : Nat) (font : List Byte) (tr fr w : Nat) : Word :=
  cellByte s glyphH font tr (2 * w) fr ++ cellByte s glyphH font tr (2 * w + 1) fr

/-- `RENDER_TEXT(i)`: font row `i % GLYPH_H` of text row `i / GLYPH_H`, or blank words beyond the content
(R143, R149). -/
def renderText (s : State) (textRows glyphH : Nat) (font : List Byte) (i : Nat) : List Word :=
  if i / glyphH < textRows then
    (List.range s.config.val.wpl).map fun w => textWord s glyphH font (i / glyphH) (i % glyphH) w
  else blankLine s.config.val

/-- The words that `RENDER(i)` writes to `RL` (R140). -/
def renderLine (s : State) (i : Nat) : List Word :=
  match s.config.val.content with
  | .bitmap fbRows => renderBitmap s fbRows i
  | .text textRows glyphH font => renderText s textRows glyphH font i

/-- `RENDER(i)`: every word of `RL` is written, and nothing else (R140). -/
def render (s : State) (i : Nat) : State := { s with rl := renderLine s i }

end Sys2Proof.Machine
end

