-- ==== Sys2Proof/Machine/LineSequencer.lean ====
section
/-! DEFINITION. The line sequencer: the operation `EVA`, the service of event A (R120 to R128). -/

namespace Sys2Proof.Machine

/-- `LINE` advances by one and wraps at `V_TOTAL`; `FRAME` counts the wraps modulo `2^32` (R29, R30, R120). -/
def advanceLine (s : State) : State :=
  if s.seq.line.toNat + 1 = s.timing.vTotal.toNat then
    { s with seq := { s.seq with line := 0#16, frame := s.seq.frame + 1#32 } }
  else
    { s with seq := { s.seq with line := BitVec.ofNat 16 (s.seq.line.toNat + 1) } }

/-- `VSYNC_LINE(a)`: `VSYNC <- a` (R122). -/
def vsyncLine (s : State) (a : Bool) : State := { s with seq := { s.seq with vsync := a } }

/-- Vertical sync is asserted when `LINE` becomes 0 and deasserted when it becomes `V_SYNC`, in this order (R120). -/
def driveVsync (s : State) : State :=
  let s1 := if s.seq.line = 0#16 then vsyncLine s true else s
  if s1.seq.line = s1.timing.vSync then vsyncLine s1 false else s1

/-- `visible_line <- v` (R31). -/
def setVisibleLine (s : State) (v : Option Word) : State := { s with seq := { s.seq with visibleLine := v } }

/-- Recompute `visible_line` from the new `LINE`, and render the line if it is visible (R120). -/
def showLine (s : State) : State :=
  if s.timing.visibleFrom ≤ s.seq.line.toNat ∧ s.seq.line.toNat < s.timing.visibleTo then
    let i := s.seq.line.toNat - s.timing.vSync.toNat - s.timing.vBack.toNat
    render (setVisibleLine s (some (BitVec.ofNat 16 i))) i
  else
    setVisibleLine s none

/-- The service of event A, its statements in the order of R120. -/
def serviceA (s : State) : State := showLine (driveVsync (advanceLine (acknowledgeA s)))

/-- `EVA` (R120, R264). -/
def execEva (s : State) : Host.Outcome State Fault Refusal :=
  if evaEnabled s then .next (answer (serviceA s) none) else .refused (.notEnabled .eva)

end Sys2Proof.Machine
end

