-- ==== Sys2Proof/Machine/PixelClock.lean ====
section
/-! DEFINITION. The pixel clock: the operation `PCLK` with the timer's half of it (R200, R201). -/

namespace Sys2Proof.Machine

/-- The value `HCNT` takes: 0 at the period match, otherwise one more (R201). -/
def nextHcnt (s : State) : Nat :=
  if s.timer.hcnt.toNat + 1 = s.timing.hTotal.toNat then 0 else s.timer.hcnt.toNat + 1

/-- The period match raises event A (R201). -/
def periodMatch (s : State) (n : Nat) : State := if n = 0 then raiseEventA s else s

/-- The data-start match raises event B; it sees `PEND_A` as just written (R201). -/
def dataStartMatch (s : State) (n : Nat) : State := if n = s.timing.hDataStart.toNat then raiseEventB s else s

/-- `HCNT <- n` (R201). -/
def setHcnt (s : State) (n : Nat) : State := { s with timer := { s.timer with hcnt := BitVec.ofNat 16 n } }

/-- `TIMER_TICK`, statements in the order of R201. -/
def timerTick (s : State) : State :=
  if s.control.run then setHcnt (dataStartMatch (periodMatch s (nextHcnt s)) (nextHcnt s)) (nextHcnt s) else s

/-- `PCLK`: the shifter's half, then the timer's half, as one step (R200). -/
def execPclk (s : State) : Host.Outcome State Fault Refusal := .next (answer (timerTick (shiftTick s)) none)

end Sys2Proof.Machine
end

