-- ==== Sys2Proof/Machine/Dispatch.lean ====
section
/-! DEFINITION. One operation on one state: the meaning of each row of the opcode map (R96). -/

namespace Sys2Proof.Machine

def exec (i : Instr) (s : State) : Host.Outcome State Fault Refusal :=
  match i with
  | .reset => Sys2Proof.Machine.execReset s
  | .pclk => Sys2Proof.Machine.execPclk s
  | .eva => Sys2Proof.Machine.execEva s
  | .evb => Sys2Proof.Machine.execEvb s
  | .outw => Sys2Proof.Machine.execOutw s
  | .cfgh x y z => Sys2Proof.Machine.execCfgh x y z s
  | .cfgv x y z => Sys2Proof.Machine.execCfgv x y z s
  | .cfgf x y z => Sys2Proof.Machine.execCfgf x y z s
  | .start => Sys2Proof.Machine.execStart s
  | .csenter => Sys2Proof.Machine.execCsenter s
  | .csexit => Sys2Proof.Machine.execCsexit s
  | .rdfc => Sys2Proof.Machine.execRdfc s
  | .fbwr x y z => Sys2Proof.Machine.execFbwr x y z s
  | .fbrd x y => Sys2Proof.Machine.execFbrd x y s
  | .cellwr x y z => Sys2Proof.Machine.execCellwr x y z s
  | .cellrd x y => Sys2Proof.Machine.execCellrd x y s

end Sys2Proof.Machine
end

