-- ==== Sys2Proof/Machine/Fetch.lean ====
section
/-! DEFINITION. Where the next operation comes from: the trace, a list of operation words (R90; log entry 1). -/

namespace Sys2Proof.Machine

/-- The next operation word, and the state without it; none at the end of the trace. -/
def fetch (s : State) : Option (OpWord × State) :=
  match s.trace with
  | [] => none
  | w :: ws => some (w, { s with trace := ws })

/-- The word `w` becomes the next operation of the trace. -/
def pushWord (s : State) (w : OpWord) : State := { s with trace := w :: s.trace }

/-- The trace `ws` is placed before the state: how a program comes to run (log entry 1). -/
def loadTrace (s : State) (ws : List OpWord) : State := { s with trace := ws }

end Sys2Proof.Machine
end

