-- ==== Sys2Proof/Machine/Step.lean ====
section
/-! DEFINITION. One step of the machine: the next operation of the trace (R6, R90). -/

namespace Sys2Proof.Machine

/-- One step: the next operation word of the trace is taken, decoded and performed. A word that spells no operation
is refused (R99), and so is the step beyond the end of the trace (log entry 8). -/
def step (s : State) : Host.Outcome State Fault Refusal :=
  match fetch s with
  | none => .refused .traceEnded
  | some (w, s') =>
    match decode w with
    | .error e => .refused (.invalidWord w e)
    | .ok i => exec i s'

/-- `s` with the operation word whose low `nbits` bits are those of `w` put in front of the trace, where `step` takes its
next operation (log entries 1 and 15). -/
def State.withFetchWord (s : State) (nbits w : Nat) : State := pushWord s (BitVec.ofNat 64 (w % 2 ^ nbits))

end Sys2Proof.Machine
end

