-- ==== Sys2Proof/Machine/Schedule.lean ====
section
/-! DEFINITION. Runs: a list of operations performed in order (R7, R79), its output trace (R8) and results (R101), and the
eager schedule of the services (R313). -/

namespace Sys2Proof.Machine

/-- Perform a list of operations in order; an operation that is not enabled ends it, because the list is then no run
(R7, R17, R79). -/
def runOps : List Instr → State → Host.Outcome State Fault Refusal
  | [], s => .next s
  | i :: is, s =>
    match exec i s with
    | .next t => runOps is t
    | .fault r => .fault r
    | .refused r => .refused r

/-- The output trace of a run: the outputs right after each `PCLK` (R8). -/
def outputTrace : List Instr → State → List Sample
  | [], _ => []
  | i :: is, s =>
    match exec i s with
    | .next t => if i = .pclk then sample t :: outputTrace is t else outputTrace is t
    | .fault _ => []
    | .refused _ => []

/-- The results of a run, in order (R101). -/
def hostResults : List Instr → State → List HostResult
  | [], _ => []
  | i :: is, s =>
    match exec i s with
    | .next t => t.result.toList ++ hostResults is t
    | .fault _ => []
    | .refused _ => []

/-- The service the drain performs next: `EVA` if it is enabled, otherwise `EVB`, otherwise `OUTW` (R313). -/
def nextService (s : State) : Option Instr :=
  if evaEnabled s then some .eva
  else if evbEnabled s then some .evb
  else if outwEnabled s then some .outw
  else none

/-- The services of a drain of at most `k` of them, in order (R313). -/
def drainOps : Nat → State → List Instr
  | 0, _ => []
  | k + 1, s =>
    match nextService s with
    | none => []
    | some i =>
      match exec i s with
      | .next t => i :: drainOps k t
      | .fault _ => [i]
      | .refused _ => [i]

/-- A bound on the length of a drain: `EVA` and `EVB` occur at most once, and `OUTW` at most `FIFO_DEPTH` times (R313,
log entry 16). -/
def drainBound (s : State) : Nat := s.config.val.fifoDepth + 2

/-- The drain: the services, while any is enabled (R313). -/
def drain (s : State) : Host.Outcome State Fault Refusal := runOps (drainOps (drainBound s) s) s

/-- A drain follows the operation: it follows every `PCLK` and every `CSEXIT` (R313). -/
def opensDrain (i : Instr) : Bool := i == .pclk || i == .csexit

/-- One operation of the timer, the host or the environment, with the drain that follows it (R313). -/
def eagerStep (i : Instr) (s : State) : Host.Outcome State Fault Refusal :=
  match exec i s with
  | .next t => if opensDrain i then drain t else .next t
  | .fault r => .fault r
  | .refused r => .refused r

/-- The run of the given operations under the eager schedule (R313). -/
def eagerRun : List Instr → State → Host.Outcome State Fault Refusal
  | [], s => .next s
  | i :: is, s =>
    match eagerStep i s with
    | .next t => eagerRun is t
    | .fault r => .fault r
    | .refused r => .refused r

/-- The trace of the eager schedule: the given operations with the services where the drains put them (R313). -/
def eagerTrace : List Instr → State → List Instr
  | [], _ => []
  | i :: is, s =>
    match exec i s with
    | .next t =>
      let d := if opensDrain i then drainOps (drainBound t) t else []
      match runOps d t with
      | .next u => i :: (d ++ eagerTrace is u)
      | .fault _ => i :: d
      | .refused _ => i :: d
    | .fault _ => [i]
    | .refused _ => [i]

/-- `n` repetitions of a group of operations, the `*n` of R102. -/
def repeatOps (n : Nat) (g : List Instr) : List Instr := (List.replicate n g).flatten

end Sys2Proof.Machine
end

