-- ==== Sys2Proof/Machine/HostSoftware.lean ====
section
/-! DEFINITION. The host software: the pseudo-operations of R103, each of which expands into host-port operations
(R230 to R249). It runs on the host agent and drives the block through `exec` alone; none of it is hardware (R4). -/

namespace Sys2Proof.Machine

/-- The host beside the block: the cursor, which is the host's own state (R54, R230), the block, and the operations the
host has issued, in order. -/
structure HostSide where
  /-- The block. -/
  block : State
  /-- `CUR_COL` (R54). -/
  curCol : Nat
  /-- `CUR_ROW` (R54). -/
  curRow : Nat
  /-- The operations issued so far. -/
  issued : List Instr
deriving DecidableEq, Repr

/-- The host at its beginning: the cursor is `(0, 0)` (R54). -/
def hostStart (s : State) : HostSide := { block := s, curCol := 0, curRow := 0, issued := [] }

/-- The host issues one host-port operation (R230). -/
def issue (h : HostSide) (i : Instr) : HostSide :=
  match exec i h.block with
  | .next t => { h with block := t, issued := h.issued ++ [i] }
  | .fault _ => h
  | .refused _ => h

/-- The 16-bit result of the operation just issued (R101). -/
def got16 (h : HostSide) : Word :=
  match h.block.result with
  | some (.word16 v) => v
  | _ => 0#16

/-- The 32-bit result of the operation just issued (R101). -/
def got32 (h : HostSide) : Word32 :=
  match h.block.result with
  | some (.word32 v) => v
  | _ => 0#32

/-- `TEXT_ROWS`; a bitmap instance has no text rows. -/
def textRowsOf (p : Params) : Nat :=
  match p.content with
  | .bitmap _ => 0
  | .text rows _ _ => rows

/-- `FB_ROWS`; a text instance has no stored bitmap rows. -/
def fbRowsOf (p : Params) : Nat :=
  match p.content with
  | .bitmap rows => rows
  | .text _ _ _ => 0

/-- The glyph code of a codepoint, or that of the "unknown" glyph (R67, R231). -/
def glyphOf (p : Params) (ch : Nat) : Byte := (p.charset.lookup ch).getD p.glyphUnknown

/-- The cell word `(invert << 15) | code` (R231). -/
def glyphWord (invert : Bool) (code : Byte) : Word := (if invert then 0x8000#16 else 0#16) ||| code.setWidth 16

/-- `with_cs`: the body inside the critical section (R245). -/
def withCs (body : HostSide → HostSide) (h : HostSide) : HostSide := issue (body (issue h .csenter)) .csexit

/-- `write_glyph(ch, col, row, invert)` (R231). -/
def writeGlyph (ch col row : Nat) (invert : Bool) (h : HostSide) : HostSide :=
  if col < h.block.config.val.textCols ∧ row < textRowsOf h.block.config.val then
    issue h (.cellwr (BitVec.ofNat 16 col) (BitVec.ofNat 16 row) (glyphWord invert (glyphOf h.block.config.val ch)))
  else h

/-- The copy of one cell from the row below (R237). -/
def copyCellUp (r : Nat) (h : HostSide) (c : Nat) : HostSide :=
  let g := issue h (.cellrd (BitVec.ofNat 16 c) (BitVec.ofNat 16 (r + 1)))
  issue g (.cellwr (BitVec.ofNat 16 c) (BitVec.ofNat 16 r) (got16 g))

/-- The copy of one text row from the row below (R237). -/
def copyRowUp (cols : Nat) (h : HostSide) (r : Nat) : HostSide := (List.range cols).foldl (copyCellUp r) h

/-- The blanking of one cell (R237, R238). -/
def blankCell (r : Nat) (h : HostSide) (c : Nat) : HostSide :=
  issue h (.cellwr (BitVec.ofNat 16 c) (BitVec.ofNat 16 r) 0#16)

/-- `scroll()` (R237). -/
def scroll (h : HostSide) : HostSide :=
  let rows := textRowsOf h.block.config.val
  let cols := h.block.config.val.textCols
  withCs (fun g =>
    (List.range cols).foldl (blankCell (rows - 1)) ((List.range (rows - 1)).foldl (copyRowUp cols) g)) h

/-- `next_row()` (R235). -/
def nextRow (h : HostSide) : HostSide :=
  if h.curRow + 1 = textRowsOf h.block.config.val then scroll h else { h with curRow := h.curRow + 1 }

/-- The cursor moves to column 0 of the next row (R233). -/
def newLine (h : HostSide) : HostSide := nextRow { h with curCol := 0 }

/-- The column of the next tab stop (R233). -/
def tabStop (h : HostSide) : Nat :=
  (h.curCol / h.block.config.val.tabInterval + 1) * h.block.config.val.tabInterval

/-- A tab: the column rounds up to the next stop, or goes to the next row when that is past the last column (R233). -/
def writeTab (h : HostSide) : HostSide :=
  if h.block.config.val.textCols ≤ tabStop h then newLine h else { h with curCol := tabStop h }

/-- The column advances by one, and wraps to the next row after the last column (R233). -/
def advanceCursor (h : HostSide) : HostSide :=
  if h.curCol + 1 = h.block.config.val.textCols then newLine h else { h with curCol := h.curCol + 1 }

/-- `write_char(ch)`: newline, carriage return, tab, or a glyph at the cursor (R233). -/
def writeChar (h : HostSide) (ch : Nat) : HostSide :=
  if ch = 0x0A then newLine h
  else if ch = 0x0D then { h with curCol := 0 }
  else if ch = 0x09 then writeTab h
  else advanceCursor (writeGlyph ch h.curCol h.curRow false h)

/-- `write_string(s)` (R236). -/
def writeString (chars : List Nat) (h : HostSide) : HostSide := chars.foldl writeChar h

/-- `write_string(s, x, y)`, the positional form (R236). -/
def writeStringAt (chars : List Nat) (x y : Nat) (h : HostSide) : HostSide :=
  if x < h.block.config.val.textCols ∧ y < textRowsOf h.block.config.val then
    writeString chars { h with curCol := x, curRow := y }
  else h

/-- The zeroing of one word of the bitmap store (R238). -/
def zeroWord (r : Nat) (h : HostSide) (c : Nat) : HostSide :=
  issue h (.fbwr (BitVec.ofNat 16 c) (BitVec.ofNat 16 r) 0#16)

/-- `clear()` on either variant (R238). -/
def clear (h : HostSide) : HostSide :=
  let p := h.block.config.val
  withCs (fun g =>
    match p.content with
    | .bitmap rows => (List.range rows).foldl (fun g r => (List.range p.wpl).foldl (zeroWord r) g) g
    | .text rows _ _ => (List.range rows).foldl (fun g r => (List.range p.textCols).foldl (blankCell r) g) g) h

/-- The word with the bit of pixel column `px` set or cleared (R240). -/
def setPixel (w : Word) (px : Nat) (set : Bool) : Word :=
  if set then w ||| (1#16 <<< pixelBit px) else w &&& ~~~(1#16 <<< pixelBit px)

/-- `point(x, y, set)`: a read and a write of one word, or nothing outside the buffer (R240, R252). -/
def point (set : Bool) (h : HostSide) (q : Int × Int) : HostSide :=
  if 0 ≤ q.1 ∧ q.1 < 16 * (h.block.config.val.wpl : Int) ∧ 0 ≤ q.2 ∧
      q.2 < (fbRowsOf h.block.config.val : Int) then
    let col := BitVec.ofNat 16 (pixelWord q.1.toNat)
    let row := BitVec.ofNat 16 q.2.toNat
    let g := issue h (.fbrd col row)
    issue g (.fbwr col row (setPixel (got16 g) q.1.toNat set))
  else h

/-- The rasterised pixels from `(x, y)` to `(x1, y1)` in order, at most `k` of them (R241). -/
def linePoints : Nat → (x y x1 y1 dx dy sx sy err : Int) → List (Int × Int)
  | 0, _, _, _, _, _, _, _, _, _ => []
  | k + 1, x, y, x1, y1, dx, dy, sx, sy, err =>
    if x = x1 ∧ y = y1 then [(x, y)]
    else
      let e2 := 2 * err
      let xStep := decide (dy ≤ e2)
      let yStep := decide (e2 ≤ dx)
      (x, y) :: linePoints k (if xStep then x + sx else x) (if yStep then y + sy else y) x1 y1 dx dy sx sy
        (err + (if xStep then dy else 0) + (if yStep then dx else 0))

/-- All the rasterised pixels of `line((x0,y0), (x1,y1))` in order (R241). Every step moves one coordinate nearer to the
end point, so `|x1 - x0| + |y1 - y0| + 1` bounds their number. -/
def rasterLine (x0 y0 x1 y1 : Int) : List (Int × Int) :=
  let dx := (x1 - x0).natAbs
  let dy := (y1 - y0).natAbs
  linePoints (dx + dy + 1) x0 y0 x1 y1 dx (-dy) (if x0 < x1 then 1 else -1) (if y0 < y1 then 1 else -1)
    ((dx : Int) - dy)

/-- `line((x0,y0), (x1,y1), set)`: one `point` for each rasterised pixel (R241). -/
def line (x0 y0 x1 y1 : Int) (set : Bool) (h : HostSide) : HostSide := (rasterLine x0 y0 x1 y1).foldl (point set) h

/-- `hollow_rectangle(x0, y0, x1, y1, set)`: four lines (R243). -/
def hollowRectangle (x0 y0 x1 y1 : Int) (set : Bool) (h : HostSide) : HostSide :=
  line x0 y1 x0 y0 set (line x1 y1 x0 y1 set (line x1 y0 x1 y1 set (line x0 y0 x1 y0 set h)))

/-- What the other agents do between two operations of the host; none if it is no run (R7, R17). -/
def othersRun (ops : List Instr) (h : HostSide) : Option HostSide :=
  match runOps ops h.block with
  | .next t => some { h with block := t }
  | .fault _ => none
  | .refused _ => none

/-- The polling of `RDFC` until its result differs from `f0`. Before each poll the other agents perform the next group of
operations; none if the groups end before the result differs (R246, R312). -/
def pollFrame (f0 : Word32) : List (List Instr) → HostSide → Option HostSide
  | [], _ => none
  | g :: gs, h =>
    match othersRun g h with
    | none => none
    | some h1 =>
      let h2 := issue h1 .rdfc
      if got32 h2 = f0 then pollFrame f0 gs h2 else some h2

/-- Wait for a new frame (R246, R306). -/
def waitFrame (groups : List (List Instr)) (h : HostSide) : Option HostSide :=
  let h1 := issue h .rdfc
  pollFrame (got32 h1) groups h1

/-- The setup sequence after `RESET`: clear the store, configure, start (R294). -/
def setup (t : FrameTiming) (h : HostSide) : HostSide :=
  let h1 := issue (clear h) (.cfgh t.hTotal t.hSyncEnd t.hDataStart)
  let h2 := issue h1 (.cfgv t.vSync t.vBack t.vVisible)
  issue (issue h2 (.cfgf t.vFront t.vTotal t.vScale)) .start

end Sys2Proof.Machine
end

