-- ==== Sys2Proof/Safety.lean ====
section
/-! DEFINITION. What counts as a safe state and a safe run, in the terms the claims use: the invariants of the state
(R26, R29, R33, R34, R37, R41, R169), the missed deadline (R266), the fit condition (R307), and the pixels still to be
shifted out (R167). -/

namespace Sys2Proof.Machine

/-- The value of `visible_line` that belongs to a scanline number (R33 (b)). -/
def visibleLineOf (t : FrameTiming) (n : Nat) : Option Word :=
  if t.visibleFrom ≤ n ∧ n < t.visibleTo then some (BitVec.ofNat 16 (n - t.visibleFrom)) else none

/-- Every service, the timer and the shifter are at their power-on values (R37, R169). -/
structure Idle (s : State) : Prop where
  seqZero : s.seq = { line := 0#16, frame := 0#32, visibleLine := none, vsync := false }
  timerZero : s.timer = { hcnt := 0#16, pendA := false, pendB := false }
  outZero : s.out = { emitting := false, outIdx := 0#16 }
  shifterZero : s.shifter = { fifo := [], shReg := 0#16, shCnt := 0, pix := false }
  rlUnwritten : s.rl = []
  missZero : s.miss = false

/-- The raster invariants of a running block (R26, R29, R33, R34). -/
structure RasterInv (s : State) : Prop where
  timingValid : checkMask s.config.val s.timing = 0#5
  noError : s.control.cfgErr = 0#5
  lineBelowTotal : s.seq.line.toNat < s.timing.vTotal.toNat
  visibleLineRight : s.seq.visibleLine = visibleLineOf s.timing s.seq.line.toNat
  vsyncRight : s.seq.vsync = decide (s.seq.line.toNat < s.timing.vSync.toNat)
  hcntBelowTotal : s.timer.hcnt.toNat < s.timing.hTotal.toNat

/-- The invariants of the line buffer, the clock-out and the shifter (R41, R42, R169, R293). -/
structure PipeInv (s : State) : Prop where
  rlWhole : s.rl = [] ∨ s.rl.length = s.config.val.wpl
  visibleRendered : s.seq.visibleLine.isSome → s.rl.length = s.config.val.wpl
  emittingVisible : s.out.emitting = true → s.seq.visibleLine.isSome
  outIdxBelow : s.out.emitting = true → s.out.outIdx.toNat < s.config.val.wpl
  outIdxIdle : s.out.emitting = false → s.out.outIdx = 0#16
  fifoBounded : s.shifter.fifo.length ≤ s.config.val.fifoDepth
  shCntBelow : s.shifter.shCnt.val ≤ 15

/-- The keys of a memory are those of elements in range. -/
def keysIn {α : Type} (ok : Nat → Nat → Bool) (m : Memory α) : Bool :=
  m.all fun e => ok (e.1 / 65536) (e.1 % 65536)

/-- The content store holds elements of its own address space only, in the canonical form (R60, R73, R184). -/
structure StoreInv (s : State) : Prop where
  fbWf : Memory.wf s.fb = true
  cellWf : Memory.wf s.cell = true
  fbKeys : keysIn (inFb s.config.val) s.fb = true
  cellKeys : keysIn (inCell s.config.val) s.cell = true

/-- The invariant of the block. -/
structure Inv (s : State) : Prop where
  stopped : s.control.run = false → Idle s
  running : s.control.run = true → RasterInv s
  pipe : PipeInv s
  store : StoreInv s

/-- No deadline has been missed so far (R51, R266). -/
def NoMiss (s : State) : Prop := s.miss = false

/-- The fit condition: a line's pixels fit between data start and line end (R307). -/
def Fits (s : State) : Prop := s.timing.hDataStart.toNat + 16 * s.config.val.wpl ≤ s.timing.hTotal.toNat - 1

/-- The critical section is open at no `PCLK` of the operations, when `HOLD = h` before them (R314). -/
def neverHeldAtPclk : Bool → List Instr → Bool
  | _, [] => true
  | h, i :: is =>
    match i with
    | .pclk => !h && neverHeldAtPclk h is
    | .csenter => neverHeldAtPclk true is
    | .csexit => neverHeldAtPclk false is
    | _ => neverHeldAtPclk h is

/-- The operation is the pixel clock's or the host's: not a service, which the schedule places, and not `RESET`
(R313). -/
def outsideService (i : Instr) : Bool := i.agent == .ht || i.agent == .host

/-- The bits of a word in the order they are shifted out, bit 15 first (R15, R71). -/
def wordBitsMsb (w : Word) : List Bool := (List.range 16).map fun k => w.getLsbD (15 - k)

/-- The bits of a sequence of words in the order they are shifted out (R167). -/
def streamBits (ws : List Word) : List Bool := (ws.map wordBitsMsb).flatten

/-- The bits still to be shifted out: the top `SH_CNT` bits of `SH_REG`, then the FIFO's words (R167, R169). -/
def pendingBits (sh : Shifter) : List Bool := (wordBitsMsb sh.shReg).take sh.shCnt.val ++ streamBits sh.fifo

/-- The pixel that the line buffer puts at column `k` of the scanline (R62, R68). -/
def lineBufferPixel (s : State) (k : Nat) : Bool := (readRl s (pixelWord k)).getLsbD (pixelBit k)

/-- The byte that column `c` contributes to a rendered line: the high byte of word `c / 2` for an even column, the low
byte for an odd one (R145). -/
def lineByte (ws : List Word) (c : Nat) : Byte :=
  if c % 2 = 0 then (ws.getD (c / 2) 0#16).extractLsb' 8 8 else (ws.getD (c / 2) 0#16).extractLsb' 0 8

/-- The states right after each `EVA` of a run (R124 to R126). -/
def statesAfterEva : List Instr → State → List State
  | [], _ => []
  | i :: is, s =>
    match exec i s with
    | .next t => if i = .eva then t :: statesAfterEva is t else statesAfterEva is t
    | .fault _ => []
    | .refused _ => []

/-- The words that the `OUTW` operations of a run push, in order (R167). -/
def pushedWords : List Instr → State → List Word
  | [], _ => []
  | i :: is, s =>
    match exec i s with
    | .next t => if i = .outw then readRl s s.out.outIdx.toNat :: pushedWords is t else pushedWords is t
    | .fault _ => []
    | .refused _ => []

/-- The `PIX` samples of a run at those `PCLK` operations where `SH_CNT > 0` after the reload test (R167). -/
def shiftedBits : List Instr → State → List Bool
  | [], _ => []
  | i :: is, s =>
    match exec i s with
    | .next t =>
      if i = .pclk ∧ s.control.run = true ∧ (shiftReload s.shifter).shCnt ≠ 0 then t.shifter.pix :: shiftedBits is t
      else shiftedBits is t
    | .fault _ => []
    | .refused _ => []

end Sys2Proof.Machine
end

