-- ==== Sys2Proof/Certificates/Slice0/Obligations.lean ====
section
/-! DEFINITION. The statements for the provers: encoding, the step, one completion statement for each operation, the
renderer, the stores, the invariants, the frames, the rules about runs, the eager schedule, and the host software. -/

open Sys2Proof Sys2Proof.Machine

/-! ## Encoding and the step -/

/-- R100: encoding is the inverse of decoding, with every operand at every value. -/
def Obligations.DecodeInvertsEncode : Prop := ∀ i : Instr, decode (encode i) = .ok i

/-- R100, the other direction: a word that decodes is the encoding of what it decodes to, so no bit of it is dropped. -/
def Obligations.EncodeInvertsDecode : Prop := ∀ (w : OpWord) (i : Instr), decode w = .ok i → encode i = w

/-- R96, R100: the decoder accepts exactly the words that match a row of the opcode map, and no word matches two rows. -/
def Obligations.DecoderAcceptsTheOpcodeMap : Prop :=
  ∀ w : OpWord,
    ((∃ i, decode w = .ok i) ↔ ∃ row ∈ opcodeMap, w &&& row.2.mask = matchWord row.1) ∧
      (opcodeMap.filter (rowMatches w)).length ≤ 1

/-- R97 and R98: a reserved opcode, a non-zero `f`, or a non-zero field that the format requires to be zero makes the
word invalid; the all-zero word is invalid. -/
def Obligations.ReservedWordsAreRejected : Prop :=
  ∀ w : OpWord,
    (((opField w).toNat = 0x00 ∨ (0x06 ≤ (opField w).toNat ∧ (opField w).toNat ≤ 0x0F) ∨
        (0x17 ≤ (opField w).toNat ∧ (opField w).toNat ≤ 0x1F) ∨
        (0x24 ≤ (opField w).toNat ∧ (opField w).toNat ≤ 0xFF)) →
      decode w = .error (.reservedOpcode (opField w))) ∧
    (fField w ≠ 0#8 → ∃ e, decode w = .error e) ∧
    ((opField w, Format.n) ∈ opcodeMap → xField w ≠ 0#16 ∨ yField w ≠ 0#16 ∨ zField w ≠ 0#16 →
      decode w = .error (.reservedField (opField w))) ∧
    ((opField w, Format.x2) ∈ opcodeMap → zField w ≠ 0#16 → decode w = .error (.reservedField (opField w))) ∧
    decode 0#64 = .error (.reservedOpcode 0x00#8)

/-- Words of the spec's encoding vectors, written out, decode to the operations they spell (R91 to R96). -/
def Obligations.WrittenWordsDecode : Prop :=
  decode 0x0100000000000000#64 = .ok .reset ∧
  decode 0x0200000000000000#64 = .ok .pclk ∧
  decode 0x0300000000000000#64 = .ok .eva ∧
  decode 0x0500000000000000#64 = .ok .outw ∧
  decode 0x1000003000040008#64 = .ok (.cfgh 48#16 4#16 8#16) ∧
  decode 0x1200000100070002#64 = .ok (.cfgf 1#16 7#16 2#16) ∧
  decode 0x1600000000000000#64 = .ok .rdfc ∧
  decode 0x2000000100008001#64 = .ok (.fbwr 1#16 0#16 0x8001#16) ∧
  decode 0x2300000300010000#64 = .ok (.cellrd 3#16 1#16)

/-- A step at a state whose next word decodes to `i` is `exec i` at that state with the word taken from the trace, and
nothing else changed. -/
def Obligations.StepRunsTheDecodedOperation : Prop :=
  ∀ (s : State) (w : OpWord) (ws : List OpWord) (i : Instr),
    s.trace = w :: ws → decode w = .ok i → step s = exec i { s with trace := ws }

/-- A step refuses a word that spells no operation, naming the word (R99), and refuses at the end of the trace (the
model's own convention, log entry 8). -/
def Obligations.StepRefusesInvalidWords : Prop :=
  (∀ (s : State) (w : OpWord) (ws : List OpWord) (e : DecodeReject),
    s.trace = w :: ws → decode w = .error e → step s = .refused (.invalidWord w e)) ∧
  ∀ s : State, s.trace = [] → step s = .refused .traceEnded

/-- An operation placed in front of the trace by its 64-bit word is what the next step performs. -/
def Obligations.EncodedOperationPlacedNextRuns : Prop :=
  ∀ (i : Instr) (s : State),
    step (s.withFetchWord 64 (encode i).toNat) = exec i s ∧ decodeTableWord 64 (encode i).toNat = some i

/-- `EVA`, `EVB` and `OUTW` give a next state exactly under their enabling conditions (R264); every other operation gives a
next state in every state (R17). The refusal `notEnabled` of an operation that is not enabled is the model's reading of
R17 (DEDUCED, log entry 7). -/
def Obligations.OperationsCompleteExactlyWhenEnabled : Prop :=
  ∀ s : State,
    ((∃ t, exec .eva s = .next t) ↔
      s.control.run = true ∧ s.timer.pendA = true ∧ s.control.hold = false ∧ s.out.emitting = false) ∧
    ((∃ t, exec .evb s = .next t) ↔
      s.control.run = true ∧ s.timer.pendB = true ∧ s.timer.pendA = false ∧ s.control.hold = false ∧
        s.out.emitting = false) ∧
    ((∃ t, exec .outw s = .next t) ↔
      s.control.run = true ∧ s.out.emitting = true ∧ s.shifter.fifo.length < s.config.val.fifoDepth) ∧
    ∀ i : Instr,
      (i ≠ .eva → i ≠ .evb → i ≠ .outw → ∃ t, exec i s = .next t) ∧
      ((∃ t, exec i s = .next t) ∨ exec i s = .refused (.notEnabled i))

/-! ## One completion statement for each operation -/

/-- `RESET` gives the power-on state of the same instance (R53, R222). The number of the draw and the trace are the
model's own fields (log entries 5 and 1): the unspecified contents are drawn afresh, the rest of the trace stays. -/
def Obligations.ResetRestoresPowerOn : Prop :=
  ∀ s : State, ∃ d, d ≠ s.draw ∧
    exec .reset s = .next { State.powerOn s.config with draw := d, trace := s.trace }

/-- The values of R53 at power-on, on every instance; `State.reset` is one of these states. -/
def Obligations.PowerOnValues : Prop :=
  (∀ c : Config,
    (State.powerOn c).timing = ⟨0#16, 0#16, 0#16, 0#16, 0#16, 0#16, 0#16, 0#16, 0#16⟩ ∧
    (State.powerOn c).control = ⟨false, false, 0#5⟩ ∧
    (State.powerOn c).seq = ⟨0#16, 0#32, none, false⟩ ∧
    (State.powerOn c).timer = ⟨0#16, false, false⟩ ∧
    (State.powerOn c).out = ⟨false, 0#16⟩ ∧
    (State.powerOn c).shifter = ⟨[], 0#16, 0, false⟩ ∧
    (State.powerOn c).miss = false ∧
    sample (State.powerOn c) = ⟨false, false, false⟩) ∧
  ∃ c, State.reset = State.powerOn c

/-- `PCLK` at a running block: the timer's half of R201, the shifter's half of R164, and nothing else; at a stopped
block no change (R200). -/
def Obligations.PixelClockAdvancesTheTimer : Prop :=
  ∀ s : State,
    (s.control.run = false → exec .pclk s = .next { s with result := none }) ∧
    (s.control.run = true →
      let n := if s.timer.hcnt.toNat + 1 = s.timing.hTotal.toNat then 0 else s.timer.hcnt.toNat + 1
      let a := decide (n = 0)
      let b := decide (n = s.timing.hDataStart.toNat)
      exec .pclk s = .next { s with
        timer := { hcnt := BitVec.ofNat 16 n, pendA := s.timer.pendA || a, pendB := s.timer.pendB || b }
        miss := s.miss || (a && (s.timer.pendA || s.timer.pendB || s.out.emitting)) || (b && (s.timer.pendA || a))
        shifter := shiftBit (shiftReload s.shifter)
        result := none })

/-- `SHIFT_TICK` (R164), the first half of every `PCLK`: a bit leaves the register, most significant first; a word is
taken from the FIFO in the same pixel clock in which its first bit is output; with nothing to shift the pixel is dark; a
stopped block's shifter does not change. -/
def Obligations.PixelClockShiftsOneBit : Prop :=
  ∀ s : State, ∃ t, exec .pclk s = .next t ∧
    (s.control.run = false → t.shifter = s.shifter) ∧
    (s.control.run = true → 0 < s.shifter.shCnt.val →
      t.shifter.pix = s.shifter.shReg.getLsbD 15 ∧ t.shifter.shReg = s.shifter.shReg <<< 1 ∧
        t.shifter.shCnt.val = s.shifter.shCnt.val - 1 ∧ t.shifter.fifo = s.shifter.fifo) ∧
    (∀ w q, s.control.run = true → s.shifter.shCnt.val = 0 → s.shifter.fifo = w :: q →
      t.shifter.pix = w.getLsbD 15 ∧ t.shifter.shReg = w <<< 1 ∧ t.shifter.shCnt.val = 15 ∧ t.shifter.fifo = q) ∧
    (s.control.run = true → s.shifter.shCnt.val = 0 → s.shifter.fifo = [] →
      t.shifter = { s.shifter with pix := false })

/-- `EVA`: `LINE`, `FRAME`, `VSYNC` and `PEND_A` as R120 gives them, and the frame: only the sequencer, the line buffer
and `PEND_A` may change. -/
def Obligations.EvaAdvancesTheLine : Prop :=
  ∀ s : State, s.control.run = true → s.timer.pendA = true → s.control.hold = false → s.out.emitting = false →
    let wraps := s.seq.line.toNat + 1 = s.timing.vTotal.toNat
    let l := if wraps then 0#16 else BitVec.ofNat 16 (s.seq.line.toNat + 1)
    ∃ v rl, exec .eva s = .next { s with
      timer := { s.timer with pendA := false }
      seq := { line := l
               frame := if wraps then s.seq.frame + 1#32 else s.seq.frame
               visibleLine := v
               vsync := if l = s.timing.vSync then false else if l = 0#16 then true else s.seq.vsync }
      rl := rl
      result := none }

/-- `EVA` on a visible line records its index and fills the line buffer with that line, rendered from the stores as they
stand (R120, R128, R140); on any other line the index is `None` and the line buffer stays. -/
def Obligations.EvaShowsTheVisibleLine : Prop :=
  ∀ s t : State, exec .eva s = .next t →
    let first := s.timing.vSync.toNat + s.timing.vBack.toNat
    let n := t.seq.line.toNat
    (first ≤ n ∧ n < first + s.timing.vVisible.toNat →
      t.seq.visibleLine = some (BitVec.ofNat 16 (n - first)) ∧ t.rl = renderLine s (n - first) ∧
        t.rl.length = s.config.val.wpl) ∧
    (¬(first ≤ n ∧ n < first + s.timing.vVisible.toNat) → t.seq.visibleLine = none ∧ t.rl = s.rl)

/-- `EVB` (R160): its flag is cleared; on a visible line the clock-out begins at word 0; nothing else changes. -/
def Obligations.EvbBeginsTheClockOut : Prop :=
  ∀ s : State, s.control.run = true → s.timer.pendB = true → s.timer.pendA = false → s.control.hold = false →
    s.out.emitting = false →
    exec .evb s = .next { s with
      timer := { s.timer with pendB := false }
      out := if s.seq.visibleLine = none then s.out else { emitting := true, outIdx := 0#16 }
      result := none }

/-- `OUTW` (R161): the word of the line buffer at `OUT_IDX` is appended to the FIFO; the index steps, or the clock-out
ends after the last word; nothing else changes. -/
def Obligations.OutwPushesTheNextWord : Prop :=
  ∀ s : State, s.control.run = true → s.out.emitting = true → s.shifter.fifo.length < s.config.val.fifoDepth →
    exec .outw s = .next { s with
      shifter := { s.shifter with fifo := s.shifter.fifo ++ [readRl s s.out.outIdx.toNat] }
      out := if s.out.outIdx.toNat + 1 = s.config.val.wpl then { emitting := false, outIdx := 0#16 }
             else { emitting := true, outIdx := BitVec.ofNat 16 (s.out.outIdx.toNat + 1) }
      result := none }

/-- `CFGH`, `CFGV`, `CFGF` (R204 to R206): each writes its three registers while `RUN = 0` and `CFGERR = 0`, and changes
nothing otherwise (R207). -/
def Obligations.ConfigurationWrites : Prop :=
  ∀ (s : State) (x y z : Word),
    (s.control.run = false ∧ s.control.cfgErr = 0#5 →
      exec (.cfgh x y z) s =
        .next { s with timing := { s.timing with hTotal := x, hSyncEnd := y, hDataStart := z }, result := none } ∧
      exec (.cfgv x y z) s =
        .next { s with timing := { s.timing with vSync := x, vBack := y, vVisible := z }, result := none } ∧
      exec (.cfgf x y z) s =
        .next { s with timing := { s.timing with vFront := x, vTotal := y, vScale := z }, result := none }) ∧
    (s.control.run = true ∨ s.control.cfgErr ≠ 0#5 →
      exec (.cfgh x y z) s = .next { s with result := none } ∧
      exec (.cfgv x y z) s = .next { s with result := none } ∧
      exec (.cfgf x y z) s = .next { s with result := none })

/-- `CHECK()` (R215): each bit of the mask stands for its condition, on unbounded integers; a clear mask implies
`H_TOTAL >= 1` and `V_TOTAL >= 4`. -/
def Obligations.CheckReportsEveryFailure : Prop :=
  ∀ (p : Params) (t : FrameTiming),
    ((checkMask p t).getLsbD 0 = true ↔
      t.vSync.toNat + t.vBack.toNat + t.vVisible.toNat + t.vFront.toNat ≠ t.vTotal.toNat) ∧
    ((checkMask p t).getLsbD 1 = true ↔
      t.vSync.toNat = 0 ∨ t.vBack.toNat = 0 ∨ t.vVisible.toNat = 0 ∨ t.vFront.toNat = 0) ∧
    ((checkMask p t).getLsbD 2 = true ↔
      t.hTotal.toNat ≤ t.hSyncEnd.toNat ∨ t.hTotal.toNat ≤ t.hDataStart.toNat) ∧
    ((checkMask p t).getLsbD 3 = true ↔ t.vScale.toNat = 0) ∧
    ((checkMask p t).getLsbD 4 = true ↔
      (∃ rows h font, p.content = .text rows h font) ∧ t.vScale.toNat ≠ 1) ∧
    (checkMask p t = 0#5 → 1 ≤ t.hTotal.toNat ∧ 4 ≤ t.vTotal.toNat)

/-- `START` (R210, R216, R262): refused with `0x20` and no change unless `RUN = 0` and `CFGERR = 0`; a non-zero mask is
recorded and returned; a clear mask starts the block in the start state and returns 0. -/
def Obligations.StartReportsOrRuns : Prop :=
  ∀ s : State,
    (s.control.run = true ∨ s.control.cfgErr ≠ 0#5 →
      exec .start s = .next { s with result := some (.word32 0x20#32) }) ∧
    (s.control.run = false → s.control.cfgErr = 0#5 → checkMask s.config.val s.timing ≠ 0#5 →
      exec .start s = .next { s with
        control := { s.control with cfgErr := checkMask s.config.val s.timing }
        result := some (.word32 ((checkMask s.config.val s.timing).setWidth 32)) }) ∧
    (s.control.run = false → s.control.cfgErr = 0#5 → checkMask s.config.val s.timing = 0#5 →
      exec .start s = .next { s with
        control := { s.control with run := true }
        seq := { line := BitVec.ofNat 16 (s.timing.vTotal.toNat - 1), frame := 0#32, visibleLine := none,
                 vsync := false }
        timer := { hcnt := 0#16, pendA := false, pendB := false }
        out := { emitting := false, outIdx := 0#16 }
        shifter := { fifo := [], shReg := 0#16, shCnt := 0, pix := false }
        miss := false
        result := some (.word32 0#32) })

/-- `CSENTER` and `CSEXIT` (R218, R219): `HOLD` is set, or cleared, and nothing else changes; the section does not
nest. -/
def Obligations.CriticalSectionBit : Prop :=
  ∀ s : State,
    exec .csenter s = .next { s with control := { s.control with hold := true }, result := none } ∧
    exec .csexit s = .next { s with control := { s.control with hold := false }, result := none }

/-- `RDFC` returns the 32-bit frame counter and changes nothing (R220). -/
def Obligations.RdfcReturnsTheFrame : Prop :=
  ∀ s : State, exec .rdfc s = .next { s with result := some (.word32 s.seq.frame) }

/-- `FBWR` and `FBRD` (R180, R181): in range one word is written, or read; out of range, or on a text instance, a write
changes nothing and a read returns 0. -/
def Obligations.BitmapPort : Prop :=
  ∀ (s : State) (x y z : Word),
    ((∃ rows, s.config.val.content = .bitmap rows ∧ y.toNat < rows ∧ x.toNat < s.config.val.wpl) →
      exec (.fbwr x y z) s =
        .next { s with fb := Memory.write s.fb (elemKey y.toNat x.toNat) z, result := none } ∧
      exec (.fbrd x y) s = .next { s with result := some (.word16 (readFb s y.toNat x.toNat)) }) ∧
    ((¬∃ rows, s.config.val.content = .bitmap rows ∧ y.toNat < rows ∧ x.toNat < s.config.val.wpl) →
      exec (.fbwr x y z) s = .next { s with result := none } ∧
      exec (.fbrd x y) s = .next { s with result := some (.word16 0#16) })

/-- `CELLWR` and `CELLRD` (R182, R183): in range one cell is written, or read as a cell word; out of range, or on a
bitmap instance, a write changes nothing and a read returns 0. -/
def Obligations.TextPort : Prop :=
  ∀ (s : State) (x y z : Word),
    ((∃ rows h font, s.config.val.content = .text rows h font ∧ y.toNat < rows ∧ x.toNat < s.config.val.textCols) →
      exec (.cellwr x y z) s =
        .next { s with cell := Memory.write s.cell (elemKey y.toNat x.toNat)
                         { inv := z.getLsbD 15, code := z.extractLsb' 0 8 }
                       result := none } ∧
      ∃ v, exec (.cellrd x y) s = .next { s with result := some (.word16 v) } ∧
        v.getLsbD 15 = (readCell s y.toNat x.toNat).inv ∧ v.extractLsb' 8 7 = 0#7 ∧
        v.extractLsb' 0 8 = (readCell s y.toNat x.toNat).code) ∧
    ((¬∃ rows h font, s.config.val.content = .text rows h font ∧ y.toNat < rows ∧
        x.toNat < s.config.val.textCols) →
      exec (.cellwr x y z) s = .next { s with result := none } ∧
      exec (.cellrd x y) s = .next { s with result := some (.word16 0#16) })

/-! ## The renderer -/

/-- R141, R142: visible line `i` of a bitmap is the stored row `i / VSCALE`, word for word, or zero words beyond the
stored rows. -/
def Obligations.BitmapRowsAreCopied : Prop :=
  ∀ (s : State) (rows i : Nat), s.config.val.content = .bitmap rows →
    (renderLine s i).length = s.config.val.wpl ∧
    ∀ w, w < s.config.val.wpl →
      (renderLine s i)[w]? =
        some (if i / s.timing.vScale.toNat < rows then readFb s (i / s.timing.vScale.toNat) w else 0#16)

/-- R143 to R145: in a rendered text line the byte of column `c` is the font byte of the cell in that column of text row
`i / GLYPH_H`, font row `i % GLYPH_H`, complemented if the cell is inverted; blank beyond the last column and beyond the
last text row. -/
def Obligations.TextCellsArePacked : Prop :=
  ∀ (s : State) (rows glyphH : Nat) (font : List Byte) (i : Nat),
    s.config.val.content = .text rows glyphH font →
    (renderLine s i).length = s.config.val.wpl ∧
    ∀ c, c < 2 * s.config.val.wpl →
      lineByte (renderLine s i) c =
        if i / glyphH < rows ∧ c < s.config.val.textCols then
          if (readCell s (i / glyphH) c).inv then
            ~~~(fontByte glyphH font (readCell s (i / glyphH) c).code (i % glyphH))
          else fontByte glyphH font (readCell s (i / glyphH) c).code (i % glyphH)
        else 0#8

/-- R151: after `write_glyph` at a cell, rendering the scanlines of its text row reproduces the glyph's font bytes,
complemented if the cell was written inverted. -/
def Obligations.WrittenGlyphIsRendered : Prop :=
  ∀ (h : HostSide) (rows glyphH : Nat) (font : List Byte) (ch c r fr : Nat) (inverted : Bool),
    h.block.config.val.content = .text rows glyphH font → Memory.wf h.block.cell = true →
    c < h.block.config.val.textCols → r < rows → fr < glyphH →
    lineByte (render (writeGlyph ch c r inverted h).block (r * glyphH + fr)).rl c =
      if inverted then fontByte glyphH font (glyphOf h.block.config.val ch) fr ^^^ 0xFF#8
      else fontByte glyphH font (glyphOf h.block.config.val ch) fr

/-- R152: a visible line beyond the content height is rendered as an all-zero word array. -/
def Obligations.BlankBeyondContent : Prop :=
  ∀ (s : State) (i : Nat),
    (∀ rows, s.config.val.content = .bitmap rows → 1 ≤ s.timing.vScale.toNat → rows * s.timing.vScale.toNat ≤ i →
      (render s i).rl = List.replicate s.config.val.wpl 0#16) ∧
    (∀ rows glyphH font, s.config.val.content = .text rows glyphH font → rows * glyphH ≤ i →
      (render s i).rl = List.replicate s.config.val.wpl 0#16)

/-! ## The stores -/

/-- A bitmap read after a bitmap write gives the written word at the written element and what it gave before at every
other one (R73, R180, R181). -/
def Obligations.BitmapReadAfterWrite : Prop :=
  ∀ (s : State) (x y z x' y' : Word), Memory.wf s.fb = true →
    ∃ t u, exec (.fbwr x y z) s = .next t ∧ exec (.fbrd x' y') t = .next u ∧
      u.result = some (.word16
        (if inFb s.config.val y.toNat x.toNat = true ∧ x' = x ∧ y' = y then z else portReadFb s x' y'))

/-- A text read after a text write gives the written cell word without its bits 14:8 at the written cell, and what it
gave before at every other one (R64, R73, R182, R183). -/
def Obligations.TextReadAfterWrite : Prop :=
  ∀ (s : State) (x y z x' y' : Word), Memory.wf s.cell = true →
    ∃ t u, exec (.cellwr x y z) s = .next t ∧ exec (.cellrd x' y') t = .next u ∧
      u.result = some (.word16
        (if inCell s.config.val y.toNat x.toNat = true ∧ x' = x ∧ y' = y then z &&& 0x80FF#16
         else portReadCell s x' y'))

/-! ## Invariants -/

/-- Every step keeps the invariant of the block: what a stopped block holds (R37), the raster position, the visible line
and `VSYNC` of a running one (R26, R29, R33, R34), the clock-out and the shifter (R41, R42, R169, R293), and the
canonical form of the stores. -/
def Obligations.StepKeepsTheInvariant : Prop := ∀ s t : State, Inv s → step s = .next t → Inv t

/-- The invariant holds at power-on of every instance, and at `State.reset`. -/
def Obligations.PowerOnMeetsTheInvariant : Prop := (∀ c : Config, Inv (State.powerOn c)) ∧ Inv State.reset

/-- R33: in every state with `RUN = 1` that any trace reaches from power-on, `LINE < V_TOTAL`, `visible_line` is `Some`
iff `LINE` is in the visible band, with the index `LINE - V_SYNC - V_BACK`, and `VSYNC = 1` iff `LINE < V_SYNC`. -/
def Obligations.RunsKeepTheRasterInvariants : Prop :=
  ∀ (c : Config) (ws : List OpWord) (k : Nat) (t : State),
    Host.Core.run Sys2Proof.core k (loadTrace (State.powerOn c) ws) = .next t → t.control.run = true →
    t.seq.line.toNat < t.timing.vTotal.toNat ∧
    (t.seq.visibleLine.isSome = true ↔ t.timing.band t.seq.line.toNat = .visible) ∧
    (∀ i, t.seq.visibleLine = some i → i.toNat = t.seq.line.toNat - t.timing.vSync.toNat - t.timing.vBack.toNat) ∧
    (t.seq.vsync = true ↔ t.seq.line.toNat < t.timing.vSync.toNat)

/-! ## Frames over all operations -/

/-- No operation changes the parameters of the instance (R12, R20), and none changes the trace of operations still to
come; only `RESET` draws the unspecified contents afresh (log entries 1, 2, 5). -/
def Obligations.ParametersNeverChange : Prop :=
  ∀ (i : Instr) (s t : State), exec i s = .next t →
    t.config = s.config ∧ t.trace = s.trace ∧ (i ≠ .reset → t.draw = s.draw)

/-- R22, R207, R304: the configuration registers change only by `CFGH`, `CFGV`, `CFGF` while `RUN = 0` and `CFGERR = 0`,
and by `RESET`. -/
def Obligations.ConfigurationIsFrozen : Prop :=
  ∀ (i : Instr) (s t : State), exec i s = .next t → t.timing ≠ s.timing →
    i = .reset ∨
      (s.control.run = false ∧ s.control.cfgErr = 0#5 ∧
        ∃ x y z, i = .cfgh x y z ∨ i = .cfgv x y z ∨ i = .cfgf x y z)

/-- R37, R38, R39: `RUN` is set by `START` alone and cleared by `RESET` alone; a recorded `CFGERR` stays until `RESET`, and
`START` alone records one; `HOLD` changes only by `CSENTER`, `CSEXIT` and `RESET`. -/
def Obligations.RunAndErrorAreSticky : Prop :=
  ∀ (i : Instr) (s t : State), exec i s = .next t →
    (s.control.run = true → i ≠ .reset → t.control.run = true) ∧
    (s.control.run = false → t.control.run = true → i = .start) ∧
    (s.control.cfgErr ≠ 0#5 → i ≠ .reset → t.control.cfgErr = s.control.cfgErr) ∧
    (s.control.cfgErr = 0#5 → t.control.cfgErr ≠ 0#5 → i = .start) ∧
    (t.control.hold ≠ s.control.hold → i = .csenter ∨ i = .csexit ∨ i = .reset)

/-- R30: `FRAME` is incremented by `EVA` exactly when `LINE` wraps to 0, set to 0 by a `START` that starts the block and by
`RESET`, changed by nothing else, and read by `RDFC`. -/
def Obligations.FrameCountsLineWraps : Prop :=
  ∀ (i : Instr) (s t : State), Inv s → exec i s = .next t →
    (i = .eva →
      (t.seq.line = 0#16 ∧ t.seq.frame = s.seq.frame + 1#32) ∨ (t.seq.line ≠ 0#16 ∧ t.seq.frame = s.seq.frame)) ∧
    (i = .reset → t.seq.frame = 0#32) ∧
    (i = .start → t.seq.frame = if s.control.run = false ∧ t.control.run = true then 0#32 else s.seq.frame) ∧
    (i ≠ .eva → i ≠ .reset → i ≠ .start → t.seq.frame = s.seq.frame) ∧
    (i = .rdfc → t.result = some (.word32 s.seq.frame))

/-- R35, R263: what sets and clears the two pending flags. A `PCLK` of a running block sets them, at the wrap and at
`H_DATA_START`; `EVA` clears the first, `EVB` the second; a `START` that starts the block, and `RESET`, clear both; no
other operation changes either. -/
def Obligations.PendingFlagsFollowTheEvents : Prop :=
  ∀ (i : Instr) (s t : State), Inv s → exec i s = .next t →
    (i = .pclk → s.control.run = true →
      t.timer.pendA = (s.timer.pendA || decide (t.timer.hcnt = 0#16)) ∧
      t.timer.pendB = (s.timer.pendB || decide (t.timer.hcnt = s.timing.hDataStart))) ∧
    (i = .eva → t.timer.pendA = false ∧ t.timer.pendB = s.timer.pendB) ∧
    (i = .evb → t.timer.pendA = s.timer.pendA ∧ t.timer.pendB = false) ∧
    (i = .reset → t.timer.pendA = false ∧ t.timer.pendB = false) ∧
    (i = .start → s.control.run = false → t.control.run = true → t.timer.pendA = false ∧ t.timer.pendB = false) ∧
    ((i = .pclk ∧ s.control.run = false) ∨ (i = .start ∧ t.control.run = s.control.run) ∨ i = .outw ∨
        (i.agent = .host ∧ i ≠ .start) →
      t.timer = s.timer)

/-- R80, R161: the line buffer changes only by `EVA` and `RESET`, and never while a line is being clocked out. -/
def Obligations.LineBufferHoldsWhileEmitting : Prop :=
  ∀ (i : Instr) (s t : State), exec i s = .next t → t.rl ≠ s.rl →
    i = .reset ∨ (i = .eva ∧ s.out.emitting = false ∧ t.seq.visibleLine.isSome = true)

/-- R266: `MISS` is set by a `PCLK` in exactly the four cases of the table, cleared by `START` and `RESET` alone, and read
by nothing: with another value of `MISS` the same operation has the same outcome but for `MISS`. -/
def Obligations.MissRecordsEveryBrokenDeadline : Prop :=
  ∀ (i : Instr) (s : State),
    (∀ t, exec i s = .next t →
      (i = .pclk → s.control.run = true →
        let n := if s.timer.hcnt.toNat + 1 = s.timing.hTotal.toNat then 0 else s.timer.hcnt.toNat + 1
        (t.miss = true ↔
          s.miss = true ∨ (n = 0 ∧ s.timer.pendA = true) ∨ (n = 0 ∧ s.timer.pendB = true) ∨
            (n = 0 ∧ s.out.emitting = true) ∨
            (n = s.timing.hDataStart.toNat ∧ (s.timer.pendA = true ∨ n = 0)))) ∧
      (i = .pclk → s.control.run = false → t.miss = s.miss) ∧
      (i = .reset → t.miss = false) ∧
      (i = .start → t.miss = if s.control.run = false ∧ t.control.run = true then false else s.miss) ∧
      (i ≠ .pclk → i ≠ .reset → i ≠ .start → t.miss = s.miss)) ∧
    ∀ m,
      (∀ t, exec i s = .next t → ∃ m', exec i { s with miss := m } = .next { t with miss := m' }) ∧
      (∀ r, exec i s = .refused r → exec i { s with miss := m } = .refused r)

/-- The write half of the access table of R50, by agent: what no operation of an agent touches. A host operation other
than a `START` that starts the block leaves everything but the registers, `HOLD`, `CFGERR` and the store; `PCLK` leaves
everything but timer, shifter and `MISS`; `EVA` everything but sequencer, line buffer and timer; the clock-out driver
everything but its progress, the FIFO and `PEND_B`. -/
def Obligations.AgentsTouchOnlyTheirState : Prop :=
  ∀ (i : Instr) (s t : State), exec i s = .next t →
    (i.agent = .host → ¬(i = .start ∧ s.control.run = false ∧ t.control.run = true) →
      t.seq = s.seq ∧ t.timer = s.timer ∧ t.rl = s.rl ∧ t.out = s.out ∧ t.shifter = s.shifter ∧ t.miss = s.miss ∧
        t.control.run = s.control.run) ∧
    (i.agent = .host → (∀ x y z, i ≠ .fbwr x y z) → t.fb = s.fb) ∧
    (i.agent = .host → (∀ x y z, i ≠ .cellwr x y z) → t.cell = s.cell) ∧
    (i.agent = .ht →
      t.timing = s.timing ∧ t.control = s.control ∧ t.seq = s.seq ∧ t.rl = s.rl ∧ t.out = s.out ∧ t.fb = s.fb ∧
        t.cell = s.cell) ∧
    (i.agent = .seq →
      t.timing = s.timing ∧ t.control = s.control ∧ t.timer.hcnt = s.timer.hcnt ∧ t.timer.pendB = s.timer.pendB ∧
        t.out = s.out ∧ t.shifter = s.shifter ∧ t.fb = s.fb ∧ t.cell = s.cell ∧ t.miss = s.miss) ∧
    (i.agent = .out →
      t.timing = s.timing ∧ t.control = s.control ∧ t.seq = s.seq ∧ t.timer.hcnt = s.timer.hcnt ∧
        t.timer.pendA = s.timer.pendA ∧ t.rl = s.rl ∧ t.shifter.shReg = s.shifter.shReg ∧
        t.shifter.shCnt = s.shifter.shCnt ∧ t.shifter.pix = s.shifter.pix ∧ t.fb = s.fb ∧ t.cell = s.cell ∧
        t.miss = s.miss)

/-! ## Rules about runs -/

/-- R81: no `EVA` and no `EVB` occurs between a `CSENTER` and the next `CSEXIT`. `RESET`, which clears `HOLD`, ends the
section too. -/
def Obligations.CriticalSectionHoldsServicesOff : Prop :=
  ∀ (ops : List Instr) (s t : State), runOps (.csenter :: ops) s = .next t → .csexit ∉ ops → .reset ∉ ops →
    .eva ∉ ops ∧ .evb ∉ ops ∧ t.control.hold = true

/-- R291: after a `RESET` every sample is dark, with both sync outputs deasserted, until a `START` succeeds. -/
def Obligations.StoppedBlockIsDark : Prop :=
  ∀ (ops : List Instr) (s : State),
    (∀ (pre : List Instr) (u : State), pre <+: ops → runOps (.reset :: pre) s = .next u → u.control.run = false) →
    ∀ x ∈ outputTrace (.reset :: ops) s, x = ⟨false, false, false⟩

/-- R124: from a running state with `LINE < V_TOTAL`, `V_TOTAL` services of event A, with whatever other operations between
them, return `LINE` to its value and add exactly 1 to `FRAME` modulo `2^32`. A `RESET` between them would stop the
block. -/
def Obligations.FrameTakesVTotalServices : Prop :=
  ∀ (ops : List Instr) (s t : State), s.control.run = true → s.seq.line.toNat < s.timing.vTotal.toNat →
    runOps ops s = .next t → .reset ∉ ops → ops.count .eva = s.timing.vTotal.toNat →
    t.seq.line = s.seq.line ∧ t.seq.frame = s.seq.frame + 1#32

/-- R125 and R126: over the `V_TOTAL` services of event A of one frame, from the one that sets `LINE = 0`, `VSYNC` is 1 after
the first `V_SYNC` of them and 0 after the rest; `visible_line` is `None` after the first `V_SYNC + V_BACK`, then 0, 1, 2, …
after `V_VISIBLE` of them, then `None`, whatever `VSCALE` is. -/
def Obligations.SyncAndVisibleLinesOfAFrame : Prop :=
  ∀ (ops : List Instr) (s t : State), Inv s → s.control.run = true → s.seq.line.toNat + 1 = s.timing.vTotal.toNat →
    runOps ops s = .next t → .reset ∉ ops → ops.count .eva = s.timing.vTotal.toNat →
    (statesAfterEva ops s).map (fun u => u.seq.vsync) =
      List.replicate s.timing.vSync.toNat true ++
        List.replicate (s.timing.vTotal.toNat - s.timing.vSync.toNat) false ∧
    (statesAfterEva ops s).map (fun u => u.seq.visibleLine) =
      List.replicate (s.timing.vSync.toNat + s.timing.vBack.toNat) none ++
        (List.range s.timing.vVisible.toNat).map (fun k => some (BitVec.ofNat 16 k)) ++
        List.replicate s.timing.vFront.toNat none

/-- R310: one scanline period is `H_TOTAL` pixel clocks: they return `HCNT` to its value, and `HSYNC` is 1 at exactly
`H_SYNC_END` of their samples. -/
def Obligations.LinePeriodIsHTotalClocks : Prop :=
  ∀ (ops : List Instr) (s t : State), Inv s → s.control.run = true →
    runOps ops s = .next t → .reset ∉ ops → ops.count .pclk = s.timing.hTotal.toNat →
    t.timer.hcnt = s.timer.hcnt ∧
      (outputTrace ops s).countP (fun x => x.hsync) = s.timing.hSyncEnd.toNat

/-- R167: the bits that a run shifts out, with those still in the FIFO and the shift register at its end, are the bits
that were there at its beginning and then those of the words pushed, in order, bit 15 of each word first: none is lost,
repeated or reordered. (`RESET` discards words, R291.) -/
def Obligations.PixelStreamIsInOrder : Prop :=
  ∀ (ops : List Instr) (s t : State), Inv s → runOps ops s = .next t → .reset ∉ ops →
    shiftedBits ops s ++ pendingBits t.shifter = pendingBits s.shifter ++ streamBits (pushedWords ops s)

/-- R293: from any state of the invariant, after a run with at least one service of event A, a visible line's buffer is
what the renderer makes of that line from the state at the last service; so every word `OUTW` pushes was rendered. -/
def Obligations.LineBufferIsTheLastRender : Prop :=
  ∀ (ops : List Instr) (s t u : State) (i : Word), Inv s → runOps ops s = .next t → .reset ∉ ops →
    (statesAfterEva ops s).getLast? = some u → t.seq.visibleLine = some i →
    u.seq.visibleLine = some i ∧ t.rl = renderLine u i.toNat ∧ t.rl.length = t.config.val.wpl

/-- R166, R311: while a line is clocked out and the FIFO is full, at most 16 pixel clocks pass before `OUTW` is enabled. -/
def Obligations.ClockOutHoldIsShort : Prop :=
  ∀ (ops : List Instr) (s t : State), Inv s → s.control.run = true → s.out.emitting = true →
    s.shifter.fifo.length = s.config.val.fifoDepth → runOps ops s = .next t → .reset ∉ ops → .outw ∉ ops →
    16 ≤ ops.count .pclk → ∃ v, exec .outw t = .next v

/-- Every operation list that is a run is a trace of words: its encoding, loaded before a state, is run by `step` to the
same state with an empty trace, one step for each word. A run under the eager schedule (R313) is such a run, of its
trace with the services where the drains put them. -/
def Obligations.TraceRunsThroughStep : Prop :=
  ∀ (ops : List Instr) (s t : State),
    (runOps ops s = .next t →
      Host.Core.run Sys2Proof.core ops.length (loadTrace s (ops.map encode)) = .next (loadTrace t [])) ∧
    (eagerRun ops s = .next t → runOps (eagerTrace ops s) s = .next t)

/-! ## The eager schedule -/

/-- R313: the drain always ends, with none of `EVA`, `EVB`, `OUTW` enabled. -/
def Obligations.DrainEnds : Prop :=
  ∀ s : State, ∃ t, drain s = .next t ∧
    (∀ v, exec .eva t ≠ .next v) ∧ (∀ v, exec .evb t ≠ .next v) ∧ ∀ v, exec .outw t ≠ .next v

/-- R314: after a successful `START`, if `HOLD = 0` at every `PCLK`, `H_DATA_START >= 1` and the fit condition holds, then
under the eager schedule `MISS` stays 0, whatever the host does. -/
def Obligations.EagerScheduleMissesNoDeadline : Prop :=
  ∀ (ops : List Instr) (s s0 t : State), exec .start s = .next s0 → s.control.run = false → s0.control.run = true →
    1 ≤ s.timing.hDataStart.toNat → s.timing.hDataStart.toNat + 16 * s.config.val.wpl ≤ s.timing.hTotal.toNat - 1 →
    (∀ i ∈ ops, i.agent = .ht ∨ i.agent = .host) → neverHeldAtPclk s.control.hold ops = true →
    eagerRun ops s0 = .next t → NoMiss t

/-- R168, R307: under the same conditions the sample of a `PCLK` is lit exactly when the line is visible, `HCNT` after the
`PCLK` is one of `H_DATA_START + 1 .. H_DATA_START + 16 * WPL`, and the line buffer holds a lit pixel at that place. -/
def Obligations.PixelsAppearInPlace : Prop :=
  ∀ (ops : List Instr) (s s0 t u : State), exec .start s = .next s0 → s.control.run = false → s0.control.run = true →
    1 ≤ s.timing.hDataStart.toNat → s.timing.hDataStart.toNat + 16 * s.config.val.wpl ≤ s.timing.hTotal.toNat - 1 →
    (∀ i ∈ ops, i.agent = .ht ∨ i.agent = .host) → neverHeldAtPclk s.control.hold ops = true →
    eagerRun ops s0 = .next t → exec .pclk t = .next u →
    ((sample u).pix = true ↔
      t.seq.visibleLine.isSome = true ∧ s.timing.hDataStart.toNat + 1 ≤ u.timer.hcnt.toNat ∧
        u.timer.hcnt.toNat ≤ s.timing.hDataStart.toNat + 16 * s.config.val.wpl ∧
        lineBufferPixel t (u.timer.hcnt.toNat - s.timing.hDataStart.toNat - 1) = true)

/-! ## The host software -/

/-- R294: after `RESET`, the setup sequence with a valid configuration clears the store and starts the block, with the
result 0 and the registers as given; with an invalid one it returns the mask and the block stays stopped. -/
def Obligations.SetupStartsTheBlock : Prop :=
  ∀ (s s0 : State) (t : FrameTiming), exec .reset s = .next s0 →
    let h := setup t (hostStart s0)
    h.block.timing = t ∧ got32 h = (checkMask s.config.val t).setWidth 32 ∧
      (checkMask s.config.val t = 0#5 → h.block.control.run = true ∧ Inv h.block) ∧
      (checkMask s.config.val t ≠ 0#5 →
        h.block.control.run = false ∧ h.block.control.cfgErr = checkMask s.config.val t) ∧
      (∀ y x, inFb s.config.val y x = true → readFb h.block y x = 0#16) ∧
      ∀ y x, inCell s.config.val y x = true → readCell h.block y x = ⟨false, 0x00#8⟩

/-- R248, R237: after `scroll()` every text row but the last holds the old row below it, the last row is blank, and the
cursor and everything else but `HOLD` stay; the section holds `2 * (TEXT_ROWS - 1) * TEXT_COLS + TEXT_COLS` operations. -/
def Obligations.ScrollMovesTheRowsUp : Prop :=
  ∀ (h : HostSide) (rows glyphH : Nat) (font : List Byte), h.block.config.val.content = .text rows glyphH font →
    Memory.wf h.block.cell = true →
    (∀ r c, r + 1 < rows → c < h.block.config.val.textCols →
      readCell (scroll h).block r c = readCell h.block (r + 1) c) ∧
    (∀ c, c < h.block.config.val.textCols → readCell (scroll h).block (rows - 1) c = ⟨false, 0x00#8⟩) ∧
    (∃ m, (scroll h).block =
      { h.block with cell := m, control := { h.block.control with hold := false }, result := none }) ∧
    (scroll h).curCol = h.curCol ∧ (scroll h).curRow = h.curRow ∧
    (scroll h).issued.length = h.issued.length + 2 +
      (2 * (rows - 1) * h.block.config.val.textCols + h.block.config.val.textCols)

/-- R238: after `clear()` every element of the store is zero: every bitmap word, or every cell the blank glyph, not
inverted; the cursor is not changed. -/
def Obligations.ClearZeroesTheStore : Prop :=
  ∀ h : HostSide, Memory.wf h.block.fb = true → Memory.wf h.block.cell = true →
    (∀ y x, inFb h.block.config.val y x = true → readFb (clear h).block y x = 0#16) ∧
    (∀ y x, inCell h.block.config.val y x = true → readCell (clear h).block y x = ⟨false, 0x00#8⟩) ∧
    (clear h).curCol = h.curCol ∧ (clear h).curRow = h.curRow

/-- R240, R252: `point(x, y, set)` sets or clears the one pixel it names, by two operations; a point outside the buffer is
dropped. -/
def Obligations.PointSetsOnePixel : Prop :=
  ∀ (h : HostSide) (rows : Nat) (x y : Int) (set : Bool), h.block.config.val.content = .bitmap rows →
    Memory.wf h.block.fb = true →
    (0 ≤ x → x < 16 * (h.block.config.val.wpl : Int) → 0 ≤ y → y < (rows : Int) →
      (∀ px py, px < 16 * h.block.config.val.wpl → py < rows →
        storedPixel (point set h (x, y)).block px py =
          if (px : Int) = x ∧ (py : Int) = y then set else storedPixel h.block px py) ∧
      (point set h (x, y)).issued.length = h.issued.length + 2) ∧
    (¬(0 ≤ x ∧ x < 16 * (h.block.config.val.wpl : Int) ∧ 0 ≤ y ∧ y < (rows : Int)) → point set h (x, y) = h)

/-- R242: `line((0,0),(9,9))` and `line((9,9),(0,0))` set the identical set of pixels: of those in the buffer, exactly the
ten pixels `(k, k)`. -/
def Obligations.DiagonalLineIsSymmetric : Prop :=
  ∀ (h : HostSide) (rows : Nat), h.block.config.val.content = .bitmap rows → Memory.wf h.block.fb = true →
    ∀ px py, px < 16 * h.block.config.val.wpl → py < rows →
      storedPixel (line 0 0 9 9 true h).block px py =
        (decide (px = py ∧ px ≤ 9) || storedPixel h.block px py) ∧
      storedPixel (line 9 9 0 0 true h).block px py = storedPixel (line 0 0 9 9 true h).block px py

/-- R247: on a grid of two columns and at least two rows, writing three characters at `(0, 0)` wraps after two columns to
the next row: cells `[[A, B], [C, _]]`, every other cell untouched, the cursor at column 1, row 1. -/
def Obligations.StringWrapsAtTheLastColumn : Prop :=
  ∀ (h : HostSide) (rows glyphH : Nat) (font : List Byte) (a b c : Nat),
    h.block.config.val.content = .text rows glyphH font → Memory.wf h.block.cell = true →
    h.block.config.val.textCols = 2 → 2 ≤ rows →
    (∀ ch ∈ [a, b, c], ch ≠ 0x0A ∧ ch ≠ 0x0D ∧ ch ≠ 0x09) →
    let g := writeStringAt [a, b, c] 0 0 h
    readCell g.block 0 0 = ⟨false, glyphOf h.block.config.val a⟩ ∧
    readCell g.block 0 1 = ⟨false, glyphOf h.block.config.val b⟩ ∧
    readCell g.block 1 0 = ⟨false, glyphOf h.block.config.val c⟩ ∧
    readCell g.block 1 1 = readCell h.block 1 1 ∧
    (∀ y x, 2 ≤ y → y < rows → x < 2 → readCell g.block y x = readCell h.block y x) ∧
    g.curCol = 1 ∧ g.curRow = 1

/-- R54: every text routine keeps the cursor in the grid, `CUR_COL < TEXT_COLS` and `CUR_ROW < TEXT_ROWS`. -/
def Obligations.CursorStaysInTheGrid : Prop :=
  ∀ (h : HostSide) (chars : List Nat), h.curCol < h.block.config.val.textCols →
    h.curRow < textRowsOf h.block.config.val →
    (∀ g ∈ [writeString chars h, scroll h, clear h],
      g.curCol < h.block.config.val.textCols ∧ g.curRow < textRowsOf h.block.config.val) ∧
    ∀ x y, (writeStringAt chars x y h).curCol < h.block.config.val.textCols ∧
      (writeStringAt chars x y h).curRow < textRowsOf h.block.config.val
end

