-- ==== Sys2Proof/Laws/Encoding.lean ====
section
/-! SUPPORT. The fields of an assembled word are the fields it was assembled from (R91, R100). -/

namespace Sys2Proof

/-- Bit by bit, the word is `z`, then `y`, then `x`, then eight zeros, then the opcode. -/
theorem getLsbD_assembleWord (op : Byte) (x y z : Word) (i : Nat) (hi : i < 64) :
    (assembleWord op x y z).getLsbD i =
      if i < 16 then z.getLsbD i else if i < 32 then y.getLsbD (i - 16)
      else if i < 48 then x.getLsbD (i - 32) else if i < 56 then false else op.getLsbD (i - 56) := by
  simp only [assembleWord, BitVec.getLsbD_or, BitVec.getLsbD_shiftLeft, BitVec.getLsbD_setWidth, hi, decide_true,
    Bool.true_and]
  split_ifs with h1 h2 h3 h4
  · simp [h1, show i < 56 by omega, show i < 32 by omega]
  · rw [BitVec.getLsbD_of_ge z i (by omega)]
    simp [h1, h2, show i < 56 by omega, show i - 16 < 64 by omega]
  · rw [BitVec.getLsbD_of_ge z i (by omega), BitVec.getLsbD_of_ge y (i - 16) (by omega)]
    simp [h2, show i < 56 by omega, show i - 32 < 64 by omega]
  · rw [BitVec.getLsbD_of_ge z i (by omega), BitVec.getLsbD_of_ge y (i - 16) (by omega),
      BitVec.getLsbD_of_ge x (i - 32) (by omega)]
    simp [h4]
  · rw [BitVec.getLsbD_of_ge z i (by omega), BitVec.getLsbD_of_ge y (i - 16) (by omega),
      BitVec.getLsbD_of_ge x (i - 32) (by omega)]
    simp [h4, show i - 56 < 64 by omega]

theorem opField_assembleWord (op : Byte) (x y z : Word) : opField (assembleWord op x y z) = op := by
  apply BitVec.eq_of_getLsbD_eq
  intro i hi
  rw [opField, BitVec.getLsbD_extractLsb', getLsbD_assembleWord _ _ _ _ _ (by omega), if_neg (by omega),
    if_neg (by omega), if_neg (by omega), if_neg (by omega)]
  simp [hi]

theorem fField_assembleWord (op : Byte) (x y z : Word) : fField (assembleWord op x y z) = 0#8 := by
  apply BitVec.eq_of_getLsbD_eq
  intro i hi
  rw [fField, BitVec.getLsbD_extractLsb', getLsbD_assembleWord _ _ _ _ _ (by omega), if_neg (by omega),
    if_neg (by omega), if_neg (by omega), if_pos (by omega)]
  simp

theorem xField_assembleWord (op : Byte) (x y z : Word) : xField (assembleWord op x y z) = x := by
  apply BitVec.eq_of_getLsbD_eq
  intro i hi
  rw [xField, BitVec.getLsbD_extractLsb', getLsbD_assembleWord _ _ _ _ _ (by omega), if_neg (by omega),
    if_neg (by omega), if_pos (by omega)]
  simp [hi]

theorem yField_assembleWord (op : Byte) (x y z : Word) : yField (assembleWord op x y z) = y := by
  apply BitVec.eq_of_getLsbD_eq
  intro i hi
  rw [yField, BitVec.getLsbD_extractLsb', getLsbD_assembleWord _ _ _ _ _ (by omega), if_neg (by omega),
    if_pos (by omega)]
  simp [hi]

theorem zField_assembleWord (op : Byte) (x y z : Word) : zField (assembleWord op x y z) = z := by
  apply BitVec.eq_of_getLsbD_eq
  intro i hi
  rw [zField, BitVec.getLsbD_extractLsb', getLsbD_assembleWord _ _ _ _ _ (by omega), if_pos (by omega)]
  simp [hi]

end Sys2Proof
end

