-- ==== Sys2Proof/Laws/Memory.lean ====
section
/-! SUPPORT. The memories: a read after a write, the canonical form kept by every write, and what the writes of the host
port can do. -/

namespace Sys2Proof.Machine

variable {α : Type}

@[simp] theorem Memory.read?_nil (a : Nat) : Memory.read? ([] : Memory α) a = none := rfl

theorem Memory.read?_cons (k : Nat) (v : α) (m : Memory α) (a : Nat) :
    Memory.read? ((k, v) :: m) a = if k = a then some v else Memory.read? m a := rfl

/-- Below the first key nothing is listed. -/
theorem Memory.read?_eq_none_of_lt {k : Nat} {v : α} {m : Memory α} {a : Nat}
    (h : Memory.wf ((k, v) :: m) = true) (ha : a < k) : Memory.read? ((k, v) :: m) a = none := by
  induction m generalizing k v with
  | nil => simp [Memory.read?, Nat.ne_of_gt ha]
  | cons e m ih =>
    obtain ⟨l, w⟩ := e
    simp only [Memory.wf, Bool.and_eq_true, decide_eq_true_eq] at h
    rw [Memory.read?_cons, if_neg (Nat.ne_of_gt ha)]
    exact ih h.2 (Nat.lt_trans ha h.1)

/-- A read after a write: the written element reads as written, every other one as before. -/
theorem Memory.read?_write (m : Memory α) (a b : Nat) (v : α) (h : Memory.wf m = true) :
    Memory.read? (Memory.write m a v) b = if a = b then some v else Memory.read? m b := by
  induction m with
  | nil => rfl
  | cons e m ih =>
    obtain ⟨k, w⟩ := e
    have hm : Memory.wf m = true := by
      cases m with
      | nil => rfl
      | cons _ _ => simp only [Memory.wf, Bool.and_eq_true] at h; exact h.2
    unfold Memory.write
    split
    · rfl
    · split
      · subst a; simp only [Memory.read?_cons]; split <;> rfl
      · rename_i hne
        simp only [Memory.read?_cons, ih hm]
        by_cases hb : k = b
        · simp [hb, show a ≠ b by omega]
        · simp [hb]

/-- A write keeps the canonical form. -/
theorem Memory.wf_write (m : Memory α) (a : Nat) (v : α) (h : Memory.wf m = true) :
    Memory.wf (Memory.write m a v) = true := by
  induction m with
  | nil => rfl
  | cons e m ih =>
    obtain ⟨k, w⟩ := e
    unfold Memory.write
    split
    · rename_i hlt; simp [Memory.wf, hlt, h]
    · split
      · subst a
        cases m with
        | nil => rfl
        | cons _ _ => simpa only [Memory.wf] using h
      · cases m with
        | nil => simp [Memory.write, Memory.wf]; omega
        | cons e2 m2 =>
          obtain ⟨l, u⟩ := e2
          simp only [Memory.wf, Bool.and_eq_true, decide_eq_true_eq] at h
          have ih' := ih h.2
          revert ih'
          unfold Memory.write
          split
          · intro ih'; simp only [Memory.wf, Bool.and_eq_true, decide_eq_true_eq] at ih' ⊢
            exact ⟨by omega, ih'⟩
          · split
            · rename_i heq; subst heq; intro ih'
              simp only [Memory.wf, Bool.and_eq_true, decide_eq_true_eq]; exact ⟨h.1, ih'⟩
            · intro ih'; simp only [Memory.wf, Bool.and_eq_true, decide_eq_true_eq]; exact ⟨h.1, ih'⟩

/-- A write lists the written key and keeps the others. -/
theorem Memory.all_write (f : Nat × α → Bool) (m : Memory α) (a : Nat) (v : α) (h : m.all f = true)
    (hf : f (a, v) = true) : (Memory.write m a v).all f = true := by
  induction m with
  | nil => simp [Memory.write, hf]
  | cons e m ih =>
    obtain ⟨k, w⟩ := e
    simp only [List.all_cons, Bool.and_eq_true] at h
    unfold Memory.write
    split
    · simp [hf, h]
    · split
      · simp [hf, h]
      · simp [h.1, ih h.2]

/-- Elements with different coordinates below 65536 have different keys. -/
theorem elemKey_inj {y x y' x' : Nat} (hx : x < 65536) (hx' : x' < 65536) :
    elemKey y x = elemKey y' x' ↔ y = y' ∧ x = x' := by
  unfold elemKey; omega

theorem elemKey_div {y x : Nat} (hx : x < 65536) : elemKey y x / 65536 = y := by unfold elemKey; omega

theorem elemKey_mod {y x : Nat} (hx : x < 65536) : elemKey y x % 65536 = x := by unfold elemKey; omega

/-- What `FB` reads after a write to it. -/
theorem readFb_writeFb (s : State) (y x y' x' : Nat) (v : Word) (h : Memory.wf s.fb = true)
    (hx : x < 65536) (hx' : x' < 65536) :
    readFb (writeFb s y x v) y' x' = if y = y' ∧ x = x' then v else readFb s y' x' := by
  simp only [readFb, writeFb, Memory.read?_write _ _ _ _ h, elemKey_inj hx hx']
  split <;> rfl

/-- What `CELL` reads after a write to it. -/
theorem readCell_writeCell (s : State) (y x y' x' : Nat) (v : TextCell) (h : Memory.wf s.cell = true)
    (hx : x < 65536) (hx' : x' < 65536) :
    readCell (writeCell s y x v) y' x' = if y = y' ∧ x = x' then v else readCell s y' x' := by
  simp only [readCell, writeCell, Memory.read?_write _ _ _ _ h, elemKey_inj hx hx']
  split <;> rfl

/-- The bitmap write of the host port changes `FB` only, by one write in range, or nothing. -/
theorem portWriteFb_cases (s : State) (x y z : Word) :
    (inFb s.config.val y.toNat x.toNat = true ∧ portWriteFb s x y z = writeFb s y.toNat x.toNat z) ∨
      (inFb s.config.val y.toNat x.toNat = false ∧ portWriteFb s x y z = s) := by
  unfold portWriteFb; split <;> simp_all

/-- The text write of the host port changes `CELL` only, by one write in range, or nothing. -/
theorem portWriteCell_cases (s : State) (x y z : Word) :
    (inCell s.config.val y.toNat x.toNat = true ∧
        portWriteCell s x y z = writeCell s y.toNat x.toNat (cellOfWord z)) ∨
      (inCell s.config.val y.toNat x.toNat = false ∧ portWriteCell s x y z = s) := by
  unfold portWriteCell; split <;> simp_all

/-- A write in range keeps the store of the bitmap variant in its address space and in the canonical form. -/
theorem StoreInv.writeFb {s : State} (h : StoreInv s) {y x : Nat} {v : Word} (hx : x < 65536)
    (hin : inFb s.config.val y x = true) : StoreInv (writeFb s y x v) where
  fbWf := Memory.wf_write _ _ _ h.fbWf
  cellWf := h.cellWf
  fbKeys := Memory.all_write _ _ _ _ h.fbKeys (by simp only [elemKey_div hx, elemKey_mod hx]; exact hin)
  cellKeys := h.cellKeys

/-- The same for the text variant. -/
theorem StoreInv.writeCell {s : State} (h : StoreInv s) {y x : Nat} {v : TextCell} (hx : x < 65536)
    (hin : inCell s.config.val y x = true) : StoreInv (writeCell s y x v) where
  fbWf := h.fbWf
  cellWf := Memory.wf_write _ _ _ h.cellWf
  fbKeys := h.fbKeys
  cellKeys := Memory.all_write _ _ _ _ h.cellKeys (by simp only [elemKey_div hx, elemKey_mod hx]; exact hin)

/-- The stores are empty, so in the canonical form, right after reset. -/
theorem reset_stores_wf : Memory.wf State.reset.fb = true ∧ Memory.wf State.reset.cell = true := ⟨rfl, rfl⟩

end Sys2Proof.Machine
end

