-- ==== Sys2Proof/Laws/State.lean ====
section
/-! SUPPORT. What each named update of the state writes and what it leaves, one lemma for each group of fields. -/

namespace Sys2Proof.Machine

@[simp] theorem answer_timing (s : State) (r : Option HostResult) : (answer s r).timing = s.timing := rfl
@[simp] theorem answer_control (s : State) (r : Option HostResult) : (answer s r).control = s.control := rfl
@[simp] theorem answer_seq (s : State) (r : Option HostResult) : (answer s r).seq = s.seq := rfl
@[simp] theorem answer_timer (s : State) (r : Option HostResult) : (answer s r).timer = s.timer := rfl
@[simp] theorem answer_rl (s : State) (r : Option HostResult) : (answer s r).rl = s.rl := rfl
@[simp] theorem answer_out (s : State) (r : Option HostResult) : (answer s r).out = s.out := rfl
@[simp] theorem answer_shifter (s : State) (r : Option HostResult) : (answer s r).shifter = s.shifter := rfl
@[simp] theorem answer_fb (s : State) (r : Option HostResult) : (answer s r).fb = s.fb := rfl
@[simp] theorem answer_cell (s : State) (r : Option HostResult) : (answer s r).cell = s.cell := rfl
@[simp] theorem answer_miss (s : State) (r : Option HostResult) : (answer s r).miss = s.miss := rfl
@[simp] theorem answer_config (s : State) (r : Option HostResult) : (answer s r).config = s.config := rfl
@[simp] theorem answer_draw (s : State) (r : Option HostResult) : (answer s r).draw = s.draw := rfl
@[simp] theorem answer_result (s : State) (r : Option HostResult) : (answer s r).result = r := rfl
@[simp] theorem answer_trace (s : State) (r : Option HostResult) : (answer s r).trace = s.trace := rfl

@[simp] theorem raiseEventA_timing (s : State) : (raiseEventA s).timing = s.timing := rfl
@[simp] theorem raiseEventA_control (s : State) : (raiseEventA s).control = s.control := rfl
@[simp] theorem raiseEventA_seq (s : State) : (raiseEventA s).seq = s.seq := rfl
@[simp] theorem raiseEventA_timer (s : State) : (raiseEventA s).timer = { s.timer with pendA := true } := rfl
@[simp] theorem raiseEventA_rl (s : State) : (raiseEventA s).rl = s.rl := rfl
@[simp] theorem raiseEventA_out (s : State) : (raiseEventA s).out = s.out := rfl
@[simp] theorem raiseEventA_shifter (s : State) : (raiseEventA s).shifter = s.shifter := rfl
@[simp] theorem raiseEventA_fb (s : State) : (raiseEventA s).fb = s.fb := rfl
@[simp] theorem raiseEventA_cell (s : State) : (raiseEventA s).cell = s.cell := rfl
@[simp] theorem raiseEventA_miss (s : State) : (raiseEventA s).miss = (s.miss || missAtA s) := rfl
@[simp] theorem raiseEventA_config (s : State) : (raiseEventA s).config = s.config := rfl
@[simp] theorem raiseEventA_draw (s : State) : (raiseEventA s).draw = s.draw := rfl
@[simp] theorem raiseEventA_result (s : State) : (raiseEventA s).result = s.result := rfl
@[simp] theorem raiseEventA_trace (s : State) : (raiseEventA s).trace = s.trace := rfl

@[simp] theorem raiseEventB_timing (s : State) : (raiseEventB s).timing = s.timing := rfl
@[simp] theorem raiseEventB_control (s : State) : (raiseEventB s).control = s.control := rfl
@[simp] theorem raiseEventB_seq (s : State) : (raiseEventB s).seq = s.seq := rfl
@[simp] theorem raiseEventB_timer (s : State) : (raiseEventB s).timer = { s.timer with pendB := true } := rfl
@[simp] theorem raiseEventB_rl (s : State) : (raiseEventB s).rl = s.rl := rfl
@[simp] theorem raiseEventB_out (s : State) : (raiseEventB s).out = s.out := rfl
@[simp] theorem raiseEventB_shifter (s : State) : (raiseEventB s).shifter = s.shifter := rfl
@[simp] theorem raiseEventB_fb (s : State) : (raiseEventB s).fb = s.fb := rfl
@[simp] theorem raiseEventB_cell (s : State) : (raiseEventB s).cell = s.cell := rfl
@[simp] theorem raiseEventB_miss (s : State) : (raiseEventB s).miss = (s.miss || missAtB s) := rfl
@[simp] theorem raiseEventB_config (s : State) : (raiseEventB s).config = s.config := rfl
@[simp] theorem raiseEventB_draw (s : State) : (raiseEventB s).draw = s.draw := rfl
@[simp] theorem raiseEventB_result (s : State) : (raiseEventB s).result = s.result := rfl
@[simp] theorem raiseEventB_trace (s : State) : (raiseEventB s).trace = s.trace := rfl

@[simp] theorem acknowledgeA_timing (s : State) : (acknowledgeA s).timing = s.timing := rfl
@[simp] theorem acknowledgeA_control (s : State) : (acknowledgeA s).control = s.control := rfl
@[simp] theorem acknowledgeA_seq (s : State) : (acknowledgeA s).seq = s.seq := rfl
@[simp] theorem acknowledgeA_timer (s : State) : (acknowledgeA s).timer = { s.timer with pendA := false } := rfl
@[simp] theorem acknowledgeA_rl (s : State) : (acknowledgeA s).rl = s.rl := rfl
@[simp] theorem acknowledgeA_out (s : State) : (acknowledgeA s).out = s.out := rfl
@[simp] theorem acknowledgeA_shifter (s : State) : (acknowledgeA s).shifter = s.shifter := rfl
@[simp] theorem acknowledgeA_fb (s : State) : (acknowledgeA s).fb = s.fb := rfl
@[simp] theorem acknowledgeA_cell (s : State) : (acknowledgeA s).cell = s.cell := rfl
@[simp] theorem acknowledgeA_miss (s : State) : (acknowledgeA s).miss = s.miss := rfl
@[simp] theorem acknowledgeA_config (s : State) : (acknowledgeA s).config = s.config := rfl
@[simp] theorem acknowledgeA_draw (s : State) : (acknowledgeA s).draw = s.draw := rfl
@[simp] theorem acknowledgeA_result (s : State) : (acknowledgeA s).result = s.result := rfl
@[simp] theorem acknowledgeA_trace (s : State) : (acknowledgeA s).trace = s.trace := rfl

@[simp] theorem acknowledgeB_timing (s : State) : (acknowledgeB s).timing = s.timing := rfl
@[simp] theorem acknowledgeB_control (s : State) : (acknowledgeB s).control = s.control := rfl
@[simp] theorem acknowledgeB_seq (s : State) : (acknowledgeB s).seq = s.seq := rfl
@[simp] theorem acknowledgeB_timer (s : State) : (acknowledgeB s).timer = { s.timer with pendB := false } := rfl
@[simp] theorem acknowledgeB_rl (s : State) : (acknowledgeB s).rl = s.rl := rfl
@[simp] theorem acknowledgeB_out (s : State) : (acknowledgeB s).out = s.out := rfl
@[simp] theorem acknowledgeB_shifter (s : State) : (acknowledgeB s).shifter = s.shifter := rfl
@[simp] theorem acknowledgeB_fb (s : State) : (acknowledgeB s).fb = s.fb := rfl
@[simp] theorem acknowledgeB_cell (s : State) : (acknowledgeB s).cell = s.cell := rfl
@[simp] theorem acknowledgeB_miss (s : State) : (acknowledgeB s).miss = s.miss := rfl
@[simp] theorem acknowledgeB_config (s : State) : (acknowledgeB s).config = s.config := rfl
@[simp] theorem acknowledgeB_draw (s : State) : (acknowledgeB s).draw = s.draw := rfl
@[simp] theorem acknowledgeB_result (s : State) : (acknowledgeB s).result = s.result := rfl
@[simp] theorem acknowledgeB_trace (s : State) : (acknowledgeB s).trace = s.trace := rfl

@[simp] theorem raiseCfgError_timing (s : State) (m : BitVec 5) : (raiseCfgError s m).timing = s.timing := rfl
@[simp] theorem raiseCfgError_control (s : State) (m : BitVec 5) : (raiseCfgError s m).control = { s.control with cfgErr := m } := rfl
@[simp] theorem raiseCfgError_seq (s : State) (m : BitVec 5) : (raiseCfgError s m).seq = s.seq := rfl
@[simp] theorem raiseCfgError_timer (s : State) (m : BitVec 5) : (raiseCfgError s m).timer = s.timer := rfl
@[simp] theorem raiseCfgError_rl (s : State) (m : BitVec 5) : (raiseCfgError s m).rl = s.rl := rfl
@[simp] theorem raiseCfgError_out (s : State) (m : BitVec 5) : (raiseCfgError s m).out = s.out := rfl
@[simp] theorem raiseCfgError_shifter (s : State) (m : BitVec 5) : (raiseCfgError s m).shifter = s.shifter := rfl
@[simp] theorem raiseCfgError_fb (s : State) (m : BitVec 5) : (raiseCfgError s m).fb = s.fb := rfl
@[simp] theorem raiseCfgError_cell (s : State) (m : BitVec 5) : (raiseCfgError s m).cell = s.cell := rfl
@[simp] theorem raiseCfgError_miss (s : State) (m : BitVec 5) : (raiseCfgError s m).miss = s.miss := rfl
@[simp] theorem raiseCfgError_config (s : State) (m : BitVec 5) : (raiseCfgError s m).config = s.config := rfl
@[simp] theorem raiseCfgError_draw (s : State) (m : BitVec 5) : (raiseCfgError s m).draw = s.draw := rfl
@[simp] theorem raiseCfgError_result (s : State) (m : BitVec 5) : (raiseCfgError s m).result = s.result := rfl
@[simp] theorem raiseCfgError_trace (s : State) (m : BitVec 5) : (raiseCfgError s m).trace = s.trace := rfl

@[simp] theorem vsyncLine_timing (s : State) (a : Bool) : (vsyncLine s a).timing = s.timing := rfl
@[simp] theorem vsyncLine_control (s : State) (a : Bool) : (vsyncLine s a).control = s.control := rfl
@[simp] theorem vsyncLine_seq (s : State) (a : Bool) : (vsyncLine s a).seq = { s.seq with vsync := a } := rfl
@[simp] theorem vsyncLine_timer (s : State) (a : Bool) : (vsyncLine s a).timer = s.timer := rfl
@[simp] theorem vsyncLine_rl (s : State) (a : Bool) : (vsyncLine s a).rl = s.rl := rfl
@[simp] theorem vsyncLine_out (s : State) (a : Bool) : (vsyncLine s a).out = s.out := rfl
@[simp] theorem vsyncLine_shifter (s : State) (a : Bool) : (vsyncLine s a).shifter = s.shifter := rfl
@[simp] theorem vsyncLine_fb (s : State) (a : Bool) : (vsyncLine s a).fb = s.fb := rfl
@[simp] theorem vsyncLine_cell (s : State) (a : Bool) : (vsyncLine s a).cell = s.cell := rfl
@[simp] theorem vsyncLine_miss (s : State) (a : Bool) : (vsyncLine s a).miss = s.miss := rfl
@[simp] theorem vsyncLine_config (s : State) (a : Bool) : (vsyncLine s a).config = s.config := rfl
@[simp] theorem vsyncLine_draw (s : State) (a : Bool) : (vsyncLine s a).draw = s.draw := rfl
@[simp] theorem vsyncLine_result (s : State) (a : Bool) : (vsyncLine s a).result = s.result := rfl
@[simp] theorem vsyncLine_trace (s : State) (a : Bool) : (vsyncLine s a).trace = s.trace := rfl

@[simp] theorem setVisibleLine_timing (s : State) (v : Option Word) : (setVisibleLine s v).timing = s.timing := rfl
@[simp] theorem setVisibleLine_control (s : State) (v : Option Word) : (setVisibleLine s v).control = s.control := rfl
@[simp] theorem setVisibleLine_seq (s : State) (v : Option Word) : (setVisibleLine s v).seq = { s.seq with visibleLine := v } := rfl
@[simp] theorem setVisibleLine_timer (s : State) (v : Option Word) : (setVisibleLine s v).timer = s.timer := rfl
@[simp] theorem setVisibleLine_rl (s : State) (v : Option Word) : (setVisibleLine s v).rl = s.rl := rfl
@[simp] theorem setVisibleLine_out (s : State) (v : Option Word) : (setVisibleLine s v).out = s.out := rfl
@[simp] theorem setVisibleLine_shifter (s : State) (v : Option Word) : (setVisibleLine s v).shifter = s.shifter := rfl
@[simp] theorem setVisibleLine_fb (s : State) (v : Option Word) : (setVisibleLine s v).fb = s.fb := rfl
@[simp] theorem setVisibleLine_cell (s : State) (v : Option Word) : (setVisibleLine s v).cell = s.cell := rfl
@[simp] theorem setVisibleLine_miss (s : State) (v : Option Word) : (setVisibleLine s v).miss = s.miss := rfl
@[simp] theorem setVisibleLine_config (s : State) (v : Option Word) : (setVisibleLine s v).config = s.config := rfl
@[simp] theorem setVisibleLine_draw (s : State) (v : Option Word) : (setVisibleLine s v).draw = s.draw := rfl
@[simp] theorem setVisibleLine_result (s : State) (v : Option Word) : (setVisibleLine s v).result = s.result := rfl
@[simp] theorem setVisibleLine_trace (s : State) (v : Option Word) : (setVisibleLine s v).trace = s.trace := rfl

@[simp] theorem render_timing (s : State) (i : Nat) : (render s i).timing = s.timing := rfl
@[simp] theorem render_control (s : State) (i : Nat) : (render s i).control = s.control := rfl
@[simp] theorem render_seq (s : State) (i : Nat) : (render s i).seq = s.seq := rfl
@[simp] theorem render_timer (s : State) (i : Nat) : (render s i).timer = s.timer := rfl
@[simp] theorem render_rl (s : State) (i : Nat) : (render s i).rl = renderLine s i := rfl
@[simp] theorem render_out (s : State) (i : Nat) : (render s i).out = s.out := rfl
@[simp] theorem render_shifter (s : State) (i : Nat) : (render s i).shifter = s.shifter := rfl
@[simp] theorem render_fb (s : State) (i : Nat) : (render s i).fb = s.fb := rfl
@[simp] theorem render_cell (s : State) (i : Nat) : (render s i).cell = s.cell := rfl
@[simp] theorem render_miss (s : State) (i : Nat) : (render s i).miss = s.miss := rfl
@[simp] theorem render_config (s : State) (i : Nat) : (render s i).config = s.config := rfl
@[simp] theorem render_draw (s : State) (i : Nat) : (render s i).draw = s.draw := rfl
@[simp] theorem render_result (s : State) (i : Nat) : (render s i).result = s.result := rfl
@[simp] theorem render_trace (s : State) (i : Nat) : (render s i).trace = s.trace := rfl

@[simp] theorem shiftOut_timing (s : State) (w : Word) : (shiftOut s w).timing = s.timing := rfl
@[simp] theorem shiftOut_control (s : State) (w : Word) : (shiftOut s w).control = s.control := rfl
@[simp] theorem shiftOut_seq (s : State) (w : Word) : (shiftOut s w).seq = s.seq := rfl
@[simp] theorem shiftOut_timer (s : State) (w : Word) : (shiftOut s w).timer = s.timer := rfl
@[simp] theorem shiftOut_rl (s : State) (w : Word) : (shiftOut s w).rl = s.rl := rfl
@[simp] theorem shiftOut_out (s : State) (w : Word) : (shiftOut s w).out = s.out := rfl
@[simp] theorem shiftOut_shifter (s : State) (w : Word) : (shiftOut s w).shifter = fifoPush s.shifter w := rfl
@[simp] theorem shiftOut_fb (s : State) (w : Word) : (shiftOut s w).fb = s.fb := rfl
@[simp] theorem shiftOut_cell (s : State) (w : Word) : (shiftOut s w).cell = s.cell := rfl
@[simp] theorem shiftOut_miss (s : State) (w : Word) : (shiftOut s w).miss = s.miss := rfl
@[simp] theorem shiftOut_config (s : State) (w : Word) : (shiftOut s w).config = s.config := rfl
@[simp] theorem shiftOut_draw (s : State) (w : Word) : (shiftOut s w).draw = s.draw := rfl
@[simp] theorem shiftOut_result (s : State) (w : Word) : (shiftOut s w).result = s.result := rfl
@[simp] theorem shiftOut_trace (s : State) (w : Word) : (shiftOut s w).trace = s.trace := rfl

@[simp] theorem setHcnt_timing (s : State) (n : Nat) : (setHcnt s n).timing = s.timing := rfl
@[simp] theorem setHcnt_control (s : State) (n : Nat) : (setHcnt s n).control = s.control := rfl
@[simp] theorem setHcnt_seq (s : State) (n : Nat) : (setHcnt s n).seq = s.seq := rfl
@[simp] theorem setHcnt_timer (s : State) (n : Nat) : (setHcnt s n).timer = { s.timer with hcnt := BitVec.ofNat 16 n } := rfl
@[simp] theorem setHcnt_rl (s : State) (n : Nat) : (setHcnt s n).rl = s.rl := rfl
@[simp] theorem setHcnt_out (s : State) (n : Nat) : (setHcnt s n).out = s.out := rfl
@[simp] theorem setHcnt_shifter (s : State) (n : Nat) : (setHcnt s n).shifter = s.shifter := rfl
@[simp] theorem setHcnt_fb (s : State) (n : Nat) : (setHcnt s n).fb = s.fb := rfl
@[simp] theorem setHcnt_cell (s : State) (n : Nat) : (setHcnt s n).cell = s.cell := rfl
@[simp] theorem setHcnt_miss (s : State) (n : Nat) : (setHcnt s n).miss = s.miss := rfl
@[simp] theorem setHcnt_config (s : State) (n : Nat) : (setHcnt s n).config = s.config := rfl
@[simp] theorem setHcnt_draw (s : State) (n : Nat) : (setHcnt s n).draw = s.draw := rfl
@[simp] theorem setHcnt_result (s : State) (n : Nat) : (setHcnt s n).result = s.result := rfl
@[simp] theorem setHcnt_trace (s : State) (n : Nat) : (setHcnt s n).trace = s.trace := rfl

@[simp] theorem startState_timing (s : State) : (startState s).timing = s.timing := rfl
@[simp] theorem startState_control (s : State) : (startState s).control = { s.control with run := true } := rfl
@[simp] theorem startState_seq (s : State) : (startState s).seq = { line := BitVec.ofNat 16 (s.timing.vTotal.toNat - 1), frame := 0#32, visibleLine := none, vsync := false } := rfl
@[simp] theorem startState_timer (s : State) : (startState s).timer = { hcnt := 0#16, pendA := false, pendB := false } := rfl
@[simp] theorem startState_rl (s : State) : (startState s).rl = s.rl := rfl
@[simp] theorem startState_out (s : State) : (startState s).out = { emitting := false, outIdx := 0#16 } := rfl
@[simp] theorem startState_shifter (s : State) : (startState s).shifter = { fifo := [], shReg := 0#16, shCnt := 0, pix := false } := rfl
@[simp] theorem startState_fb (s : State) : (startState s).fb = s.fb := rfl
@[simp] theorem startState_cell (s : State) : (startState s).cell = s.cell := rfl
@[simp] theorem startState_miss (s : State) : (startState s).miss = false := rfl
@[simp] theorem startState_config (s : State) : (startState s).config = s.config := rfl
@[simp] theorem startState_draw (s : State) : (startState s).draw = s.draw := rfl
@[simp] theorem startState_result (s : State) : (startState s).result = s.result := rfl
@[simp] theorem startState_trace (s : State) : (startState s).trace = s.trace := rfl

@[simp] theorem setHold_timing (s : State) (h : Bool) : (setHold s h).timing = s.timing := rfl
@[simp] theorem setHold_control (s : State) (h : Bool) : (setHold s h).control = { s.control with hold := h } := rfl
@[simp] theorem setHold_seq (s : State) (h : Bool) : (setHold s h).seq = s.seq := rfl
@[simp] theorem setHold_timer (s : State) (h : Bool) : (setHold s h).timer = s.timer := rfl
@[simp] theorem setHold_rl (s : State) (h : Bool) : (setHold s h).rl = s.rl := rfl
@[simp] theorem setHold_out (s : State) (h : Bool) : (setHold s h).out = s.out := rfl
@[simp] theorem setHold_shifter (s : State) (h : Bool) : (setHold s h).shifter = s.shifter := rfl
@[simp] theorem setHold_fb (s : State) (h : Bool) : (setHold s h).fb = s.fb := rfl
@[simp] theorem setHold_cell (s : State) (h : Bool) : (setHold s h).cell = s.cell := rfl
@[simp] theorem setHold_miss (s : State) (h : Bool) : (setHold s h).miss = s.miss := rfl
@[simp] theorem setHold_config (s : State) (h : Bool) : (setHold s h).config = s.config := rfl
@[simp] theorem setHold_draw (s : State) (h : Bool) : (setHold s h).draw = s.draw := rfl
@[simp] theorem setHold_result (s : State) (h : Bool) : (setHold s h).result = s.result := rfl
@[simp] theorem setHold_trace (s : State) (h : Bool) : (setHold s h).trace = s.trace := rfl

@[simp] theorem writeFb_timing (s : State) (y x : Nat) (v : Word) : (writeFb s y x v).timing = s.timing := rfl
@[simp] theorem writeFb_control (s : State) (y x : Nat) (v : Word) : (writeFb s y x v).control = s.control := rfl
@[simp] theorem writeFb_seq (s : State) (y x : Nat) (v : Word) : (writeFb s y x v).seq = s.seq := rfl
@[simp] theorem writeFb_timer (s : State) (y x : Nat) (v : Word) : (writeFb s y x v).timer = s.timer := rfl
@[simp] theorem writeFb_rl (s : State) (y x : Nat) (v : Word) : (writeFb s y x v).rl = s.rl := rfl
@[simp] theorem writeFb_out (s : State) (y x : Nat) (v : Word) : (writeFb s y x v).out = s.out := rfl
@[simp] theorem writeFb_shifter (s : State) (y x : Nat) (v : Word) : (writeFb s y x v).shifter = s.shifter := rfl
@[simp] theorem writeFb_fb (s : State) (y x : Nat) (v : Word) : (writeFb s y x v).fb = Memory.write s.fb (elemKey y x) v := rfl
@[simp] theorem writeFb_cell (s : State) (y x : Nat) (v : Word) : (writeFb s y x v).cell = s.cell := rfl
@[simp] theorem writeFb_miss (s : State) (y x : Nat) (v : Word) : (writeFb s y x v).miss = s.miss := rfl
@[simp] theorem writeFb_config (s : State) (y x : Nat) (v : Word) : (writeFb s y x v).config = s.config := rfl
@[simp] theorem writeFb_draw (s : State) (y x : Nat) (v : Word) : (writeFb s y x v).draw = s.draw := rfl
@[simp] theorem writeFb_result (s : State) (y x : Nat) (v : Word) : (writeFb s y x v).result = s.result := rfl
@[simp] theorem writeFb_trace (s : State) (y x : Nat) (v : Word) : (writeFb s y x v).trace = s.trace := rfl

@[simp] theorem writeCell_timing (s : State) (y x : Nat) (v : TextCell) : (writeCell s y x v).timing = s.timing := rfl
@[simp] theorem writeCell_control (s : State) (y x : Nat) (v : TextCell) : (writeCell s y x v).control = s.control := rfl
@[simp] theorem writeCell_seq (s : State) (y x : Nat) (v : TextCell) : (writeCell s y x v).seq = s.seq := rfl
@[simp] theorem writeCell_timer (s : State) (y x : Nat) (v : TextCell) : (writeCell s y x v).timer = s.timer := rfl
@[simp] theorem writeCell_rl (s : State) (y x : Nat) (v : TextCell) : (writeCell s y x v).rl = s.rl := rfl
@[simp] theorem writeCell_out (s : State) (y x : Nat) (v : TextCell) : (writeCell s y x v).out = s.out := rfl
@[simp] theorem writeCell_shifter (s : State) (y x : Nat) (v : TextCell) : (writeCell s y x v).shifter = s.shifter := rfl
@[simp] theorem writeCell_fb (s : State) (y x : Nat) (v : TextCell) : (writeCell s y x v).fb = s.fb := rfl
@[simp] theorem writeCell_cell (s : State) (y x : Nat) (v : TextCell) : (writeCell s y x v).cell = Memory.write s.cell (elemKey y x) v := rfl
@[simp] theorem writeCell_miss (s : State) (y x : Nat) (v : TextCell) : (writeCell s y x v).miss = s.miss := rfl
@[simp] theorem writeCell_config (s : State) (y x : Nat) (v : TextCell) : (writeCell s y x v).config = s.config := rfl
@[simp] theorem writeCell_draw (s : State) (y x : Nat) (v : TextCell) : (writeCell s y x v).draw = s.draw := rfl
@[simp] theorem writeCell_result (s : State) (y x : Nat) (v : TextCell) : (writeCell s y x v).result = s.result := rfl
@[simp] theorem writeCell_trace (s : State) (y x : Nat) (v : TextCell) : (writeCell s y x v).trace = s.trace := rfl

@[simp] theorem pushWord_timing (s : State) (w : OpWord) : (pushWord s w).timing = s.timing := rfl
@[simp] theorem pushWord_control (s : State) (w : OpWord) : (pushWord s w).control = s.control := rfl
@[simp] theorem pushWord_seq (s : State) (w : OpWord) : (pushWord s w).seq = s.seq := rfl
@[simp] theorem pushWord_timer (s : State) (w : OpWord) : (pushWord s w).timer = s.timer := rfl
@[simp] theorem pushWord_rl (s : State) (w : OpWord) : (pushWord s w).rl = s.rl := rfl
@[simp] theorem pushWord_out (s : State) (w : OpWord) : (pushWord s w).out = s.out := rfl
@[simp] theorem pushWord_shifter (s : State) (w : OpWord) : (pushWord s w).shifter = s.shifter := rfl
@[simp] theorem pushWord_fb (s : State) (w : OpWord) : (pushWord s w).fb = s.fb := rfl
@[simp] theorem pushWord_cell (s : State) (w : OpWord) : (pushWord s w).cell = s.cell := rfl
@[simp] theorem pushWord_miss (s : State) (w : OpWord) : (pushWord s w).miss = s.miss := rfl
@[simp] theorem pushWord_config (s : State) (w : OpWord) : (pushWord s w).config = s.config := rfl
@[simp] theorem pushWord_draw (s : State) (w : OpWord) : (pushWord s w).draw = s.draw := rfl
@[simp] theorem pushWord_result (s : State) (w : OpWord) : (pushWord s w).result = s.result := rfl
@[simp] theorem pushWord_trace (s : State) (w : OpWord) : (pushWord s w).trace = w :: s.trace := rfl

@[simp] theorem loadTrace_timing (s : State) (ws : List OpWord) : (loadTrace s ws).timing = s.timing := rfl
@[simp] theorem loadTrace_control (s : State) (ws : List OpWord) : (loadTrace s ws).control = s.control := rfl
@[simp] theorem loadTrace_seq (s : State) (ws : List OpWord) : (loadTrace s ws).seq = s.seq := rfl
@[simp] theorem loadTrace_timer (s : State) (ws : List OpWord) : (loadTrace s ws).timer = s.timer := rfl
@[simp] theorem loadTrace_rl (s : State) (ws : List OpWord) : (loadTrace s ws).rl = s.rl := rfl
@[simp] theorem loadTrace_out (s : State) (ws : List OpWord) : (loadTrace s ws).out = s.out := rfl
@[simp] theorem loadTrace_shifter (s : State) (ws : List OpWord) : (loadTrace s ws).shifter = s.shifter := rfl
@[simp] theorem loadTrace_fb (s : State) (ws : List OpWord) : (loadTrace s ws).fb = s.fb := rfl
@[simp] theorem loadTrace_cell (s : State) (ws : List OpWord) : (loadTrace s ws).cell = s.cell := rfl
@[simp] theorem loadTrace_miss (s : State) (ws : List OpWord) : (loadTrace s ws).miss = s.miss := rfl
@[simp] theorem loadTrace_config (s : State) (ws : List OpWord) : (loadTrace s ws).config = s.config := rfl
@[simp] theorem loadTrace_draw (s : State) (ws : List OpWord) : (loadTrace s ws).draw = s.draw := rfl
@[simp] theorem loadTrace_result (s : State) (ws : List OpWord) : (loadTrace s ws).result = s.result := rfl
@[simp] theorem loadTrace_trace (s : State) (ws : List OpWord) : (loadTrace s ws).trace = ws := rfl

@[simp] theorem resetBlock_timing (s : State) : (resetBlock s).timing = (State.powerOn s.config).timing := rfl
@[simp] theorem resetBlock_control (s : State) : (resetBlock s).control = (State.powerOn s.config).control := rfl
@[simp] theorem resetBlock_seq (s : State) : (resetBlock s).seq = (State.powerOn s.config).seq := rfl
@[simp] theorem resetBlock_timer (s : State) : (resetBlock s).timer = (State.powerOn s.config).timer := rfl
@[simp] theorem resetBlock_rl (s : State) : (resetBlock s).rl = (State.powerOn s.config).rl := rfl
@[simp] theorem resetBlock_out (s : State) : (resetBlock s).out = (State.powerOn s.config).out := rfl
@[simp] theorem resetBlock_shifter (s : State) : (resetBlock s).shifter = (State.powerOn s.config).shifter := rfl
@[simp] theorem resetBlock_fb (s : State) : (resetBlock s).fb = (State.powerOn s.config).fb := rfl
@[simp] theorem resetBlock_cell (s : State) : (resetBlock s).cell = (State.powerOn s.config).cell := rfl
@[simp] theorem resetBlock_miss (s : State) : (resetBlock s).miss = (State.powerOn s.config).miss := rfl
@[simp] theorem resetBlock_config (s : State) : (resetBlock s).config = s.config := rfl
@[simp] theorem resetBlock_draw (s : State) : (resetBlock s).draw = s.draw + 1 := rfl
@[simp] theorem resetBlock_result (s : State) : (resetBlock s).result = (State.powerOn s.config).result := rfl
@[simp] theorem resetBlock_trace (s : State) : (resetBlock s).trace = s.trace := rfl

end Sys2Proof.Machine
end

