-- ==== Sys2Proof/Laws/Ops.lean ====
section
/-! SUPPORT. What each shared operation can do, said once: the shifter, the timer, the services, the host's operations, and
one step. -/

namespace Sys2Proof.Machine

/-- The reload takes the FIFO's head when the shifter is empty, and does nothing otherwise (R164). -/
theorem shiftReload_cases (sh : Shifter) :
    (∃ w q, sh.shCnt = 0 ∧ sh.fifo = w :: q ∧
        shiftReload sh = { fifo := q, shReg := w, shCnt := 16, pix := sh.pix }) ∨
      (sh.shCnt = 0 ∧ sh.fifo = [] ∧ shiftReload sh = sh) ∨ (sh.shCnt ≠ 0 ∧ shiftReload sh = sh) := by
  obtain ⟨fifo, reg, cnt, pix⟩ := sh
  by_cases h : cnt = 0
  · cases fifo with
    | nil => exact .inr (.inl ⟨h, rfl, by simp [shiftReload, fifoPop?]⟩)
    | cons w q => exact .inl ⟨w, q, h, rfl, by simp [shiftReload, fifoPop?, h]⟩
  · exact .inr (.inr ⟨h, by simp [shiftReload, h]⟩)

/-- One bit leaves the shift register, or nothing is there to leave (R164). -/
theorem shiftBit_cases (sh : Shifter) :
    (∃ h : 0 < sh.shCnt.val, shiftBit sh =
        { fifo := sh.fifo, shReg := sh.shReg <<< 1, shCnt := ⟨sh.shCnt.val - 1, by omega⟩,
          pix := sh.shReg.getLsbD 15 }) ∨
      (sh.shCnt.val = 0 ∧ shiftBit sh = { sh with pix := false }) := by
  by_cases h : 0 < sh.shCnt.val
  · exact .inl ⟨h, by simp [shiftBit, h]⟩
  · exact .inr ⟨by omega, by simp [shiftBit, h]⟩

/-- The shifter's half of a pixel clock writes the shifter only (R164). -/
theorem shiftTick_eq (s : State) :
    shiftTick s = { s with shifter := if s.control.run then shiftBit (shiftReload s.shifter) else s.shifter } := by
  cases h : s.control.run <;> simp [shiftTick, h]

/-- The timer's half of a pixel clock: `HCNT`, the two pending flags and the ghost bit (R201, R266). -/
theorem timerTick_eq (s : State) (h : s.control.run = true) :
    timerTick s =
      { s with
        timer := { hcnt := BitVec.ofNat 16 (nextHcnt s)
                   pendA := s.timer.pendA || decide (nextHcnt s = 0)
                   pendB := s.timer.pendB || decide (nextHcnt s = s.timing.hDataStart.toNat) }
        miss := s.miss || (decide (nextHcnt s = 0) && missAtA s) ||
          (decide (nextHcnt s = s.timing.hDataStart.toNat) && (s.timer.pendA || decide (nextHcnt s = 0))) } := by
  by_cases h0 : nextHcnt s = 0 <;> by_cases hd : nextHcnt s = s.timing.hDataStart.toNat
  · have hd0 : (0 : Nat) = s.timing.hDataStart.toNat := by omega
    simp [timerTick, h, periodMatch, dataStartMatch, setHcnt, raiseEventA, raiseEventB, missAtB, h0, ← hd0]
  · have hd0 : ¬ (0 : Nat) = s.timing.hDataStart.toNat := by omega
    simp [timerTick, h, periodMatch, dataStartMatch, setHcnt, raiseEventA, h0, hd0]
  · simp [timerTick, h, periodMatch, dataStartMatch, setHcnt, raiseEventB, missAtB, hd]
    simp [hd ▸ h0]
  · simp [timerTick, h, periodMatch, dataStartMatch, setHcnt, h0, hd]

/-- While the block is stopped the timer does nothing (R37, R201). -/
theorem timerTick_stopped (s : State) (h : s.control.run = false) : timerTick s = s := by simp [timerTick, h]

/-- `LINE` and `FRAME` are all that the advance of the line writes (R120). -/
theorem advanceLine_eq (s : State) :
    advanceLine s =
      { s with seq := { s.seq with
          line := if s.seq.line.toNat + 1 = s.timing.vTotal.toNat then 0#16
                  else BitVec.ofNat 16 (s.seq.line.toNat + 1)
          frame := if s.seq.line.toNat + 1 = s.timing.vTotal.toNat then s.seq.frame + 1#32 else s.seq.frame } } := by
  by_cases h : s.seq.line.toNat + 1 = s.timing.vTotal.toNat <;> simp [advanceLine, h]

/-- The vertical sync output is all that its drive writes; the deassertion wins (R120). -/
theorem driveVsync_eq (s : State) :
    driveVsync s =
      { s with seq := { s.seq with
          vsync := if s.seq.line = s.timing.vSync then false
                   else if s.seq.line = 0#16 then true else s.seq.vsync } } := by
  by_cases h0 : s.seq.line = 0#16 <;> by_cases hv : s.seq.line = s.timing.vSync <;>
    simp only [driveVsync, h0, hv, if_true, if_false, vsyncLine_seq, vsyncLine_timing] <;> simp_all [vsyncLine]

/-- The line is visible: `visible_line` and the line buffer are written (R120). -/
theorem showLine_visible (s : State) (h1 : s.timing.visibleFrom ≤ s.seq.line.toNat)
    (h2 : s.seq.line.toNat < s.timing.visibleTo) :
    showLine s =
      { s with
        seq := { s.seq with visibleLine := visibleLineOf s.timing s.seq.line.toNat }
        rl := renderLine s (s.seq.line.toNat - s.timing.visibleFrom) } := by
  have h : s.seq.line.toNat - s.timing.vSync.toNat - s.timing.vBack.toNat =
      s.seq.line.toNat - s.timing.visibleFrom := by simp only [FrameTiming.visibleFrom]; omega
  simp only [showLine, visibleLineOf, h1, h2, and_self, if_true, h]
  rfl

/-- The line is not visible: `visible_line` becomes `None`, the line buffer stays (R120). -/
theorem showLine_hidden (s : State)
    (h : ¬ (s.timing.visibleFrom ≤ s.seq.line.toNat ∧ s.seq.line.toNat < s.timing.visibleTo)) :
    showLine s = { s with seq := { s.seq with visibleLine := none } } := by
  simp only [showLine, if_neg h]; rfl

/-- Every rendered line has `WPL` words (R140). -/
@[simp] theorem renderLine_length (s : State) (i : Nat) : (renderLine s i).length = s.config.val.wpl := by
  unfold renderLine
  split
  · unfold renderBitmap; split <;> simp [bitmapRow, blankLine]
  · unfold renderText; split <;> simp [blankLine]

/-- A rendered line depends on the configuration registers, the content store and the parameters only (R140). -/
theorem renderLine_congr {s t : State} (ht : s.timing = t.timing) (hf : s.fb = t.fb) (hc : s.cell = t.cell)
    (hp : s.config = t.config) (hd : s.draw = t.draw) (i : Nat) : renderLine s i = renderLine t i := by
  obtain ⟨_, _, _, _, _, _, _, _, _, _, _, _, _, _⟩ := s
  subst ht hf hc hp hd
  rfl

/-- The number of the next scanline: one more, and 0 after the last one (R29, R120). -/
def nextLine (s : State) : Word :=
  if s.seq.line.toNat + 1 = s.timing.vTotal.toNat then 0#16 else BitVec.ofNat 16 (s.seq.line.toNat + 1)

/-- The frame counter after the advance of the line (R30, R120). -/
def nextFrame (s : State) : Word32 :=
  if s.seq.line.toNat + 1 = s.timing.vTotal.toNat then s.seq.frame + 1#32 else s.seq.frame

/-- The vertical sync output after the advance to line `l` (R120, R122). -/
def nextVsync (s : State) (l : Word) : Bool :=
  if l = s.timing.vSync then false else if l = 0#16 then true else s.seq.vsync

/-- The service of event A, whole: the flag, the line, the frame, the sync output, `visible_line`, and on a visible line the
line buffer (R120). -/
theorem serviceA_cases (s : State) :
    (s.timing.visibleFrom ≤ (nextLine s).toNat ∧ (nextLine s).toNat < s.timing.visibleTo ∧
      serviceA s =
        { s with
          timer := { s.timer with pendA := false }
          seq := { line := nextLine s, frame := nextFrame s, vsync := nextVsync s (nextLine s)
                   visibleLine := visibleLineOf s.timing (nextLine s).toNat }
          rl := renderLine s ((nextLine s).toNat - s.timing.visibleFrom) }) ∨
      (¬ (s.timing.visibleFrom ≤ (nextLine s).toNat ∧ (nextLine s).toNat < s.timing.visibleTo) ∧
        serviceA s =
          { s with
            timer := { s.timer with pendA := false }
            seq := { line := nextLine s, frame := nextFrame s, vsync := nextVsync s (nextLine s)
                     visibleLine := none } }) := by
  have e : driveVsync (advanceLine (acknowledgeA s)) =
      { s with
        timer := { s.timer with pendA := false }
        seq := { line := nextLine s, frame := nextFrame s, vsync := nextVsync s (nextLine s)
                 visibleLine := s.seq.visibleLine } } := by
    rw [driveVsync_eq, advanceLine_eq]; rfl
  by_cases h : s.timing.visibleFrom ≤ (nextLine s).toNat ∧ (nextLine s).toNat < s.timing.visibleTo
  · refine .inl ⟨h.1, h.2, ?_⟩
    rw [serviceA, e, showLine_visible _ h.1 h.2]
    exact congrArg (fun r => { s with
        timer := { s.timer with pendA := false }
        seq := { line := nextLine s, frame := nextFrame s, vsync := nextVsync s (nextLine s)
                 visibleLine := visibleLineOf s.timing (nextLine s).toNat }
        rl := r }) (renderLine_congr rfl rfl rfl rfl rfl _)
  · refine .inr ⟨h, ?_⟩
    rw [serviceA, e, showLine_hidden _ h]

/-- The service of event B acknowledges it, and begins the clock-out on a visible line (R160). -/
theorem serviceB_eq (s : State) :
    serviceB s =
      { s with
        timer := { s.timer with pendB := false }
        out := if s.seq.visibleLine.isSome then { emitting := true, outIdx := 0#16 } else s.out } := by
  cases h : s.seq.visibleLine <;> simp [serviceB, acknowledgeB, h]

/-- One pass of the write loop pushes one word and steps `OUT_IDX` (R161). -/
theorem emitWord_eq (s : State) :
    emitWord s =
      { s with
        shifter := fifoPush s.shifter (readRl s s.out.outIdx.toNat)
        out := if s.out.outIdx.toNat + 1 = s.config.val.wpl then { emitting := false, outIdx := 0#16 }
               else { s.out with outIdx := BitVec.ofNat 16 (s.out.outIdx.toNat + 1) } } := by
  by_cases h : s.out.outIdx.toNat + 1 = s.config.val.wpl <;> simp [emitWord, stepOutIdx, shiftOut, h]

/-- A configuration write takes effect while setup is open (R207). -/
theorem configure_eq (s : State) (t : FrameTiming) :
    configure s t = { s with timing := if setupOpen s then t else s.timing } := by
  cases h : setupOpen s <;> simp [configure, h]

/-- Setup is open exactly when the block is stopped and no error is recorded (R207). -/
theorem setupOpen_iff (s : State) : setupOpen s = true ↔ s.control.run = false ∧ s.control.cfgErr = 0#5 := by
  simp [setupOpen]

/-- An error bit is clear exactly when its condition fails (R215). -/
theorem errBit_eq_zero {c : Bool} {v : BitVec 5} (hv : v ≠ 0#5) : errBit c v = 0#5 ↔ c = false := by
  cases c <;> simp [errBit, hv]

/-- `CHECK()` finds nothing exactly when none of the five conditions holds (R215). -/
theorem checkMask_eq_zero (p : Params) (t : FrameTiming) :
    checkMask p t = 0#5 ↔ t.badSum = false ∧ t.zeroCount = false ∧ t.badOffset = false ∧ t.zeroScale = false ∧
      textScaled p t = false := by
  unfold checkMask
  cases t.badSum <;> cases t.zeroCount <;> cases t.badOffset <;> cases t.zeroScale <;> cases textScaled p t <;> decide

/-- The FIFO has room (R163). -/
theorem shiftOutReady_iff (s : State) :
    shiftOutReady s = true ↔ s.shifter.fifo.length < s.config.val.fifoDepth := decide_eq_true_iff

/-- The enabling condition of `EVA` (R264). -/
theorem evaEnabled_iff (s : State) :
    evaEnabled s = true ↔
      s.control.run = true ∧ s.timer.pendA = true ∧ s.control.hold = false ∧ s.out.emitting = false := by
  simp [evaEnabled, and_assoc]

/-- The enabling condition of `EVB` (R264). -/
theorem evbEnabled_iff (s : State) :
    evbEnabled s = true ↔
      s.control.run = true ∧ s.timer.pendB = true ∧ s.timer.pendA = false ∧ s.control.hold = false ∧
        s.out.emitting = false := by
  simp [evbEnabled, and_assoc]

/-- The enabling condition of `OUTW` (R264). -/
theorem outwEnabled_iff (s : State) :
    outwEnabled s = true ↔
      s.control.run = true ∧ s.out.emitting = true ∧ s.shifter.fifo.length < s.config.val.fifoDepth := by
  simp [outwEnabled, shiftOutReady_iff, and_assoc]

/-- A rendered line has at least one word and at most 4096 (R11, R14, R250). -/
theorem wpl_bounds (c : Config) : 1 ≤ c.val.wpl ∧ c.val.wpl ≤ 4096 := by
  have h := c.property
  simp only [Params.wf, sizeOk, Bool.and_eq_true, decide_eq_true_eq] at h
  simp only [Params.wpl, wordBits]; omega

/-- The FIFO has at least one slot (R11). -/
theorem fifoDepth_pos (c : Config) : 1 ≤ c.val.fifoDepth := by
  have h := c.property
  simp only [Params.wf, Bool.and_eq_true, decide_eq_true_eq] at h
  exact h.2

/-- `EVA` gives a next state exactly when it is enabled. -/
theorem exec_eva_next {s t : State} :
    exec .eva s = .next t ↔ evaEnabled s = true ∧ t = answer (serviceA s) none := by
  cases h : evaEnabled s <;> simp [exec, execEva, h, eq_comm]

/-- `EVB` gives a next state exactly when it is enabled. -/
theorem exec_evb_next {s t : State} :
    exec .evb s = .next t ↔ evbEnabled s = true ∧ t = answer (serviceB s) none := by
  cases h : evbEnabled s <;> simp [exec, execEvb, h, eq_comm]

/-- `OUTW` gives a next state exactly when it is enabled. -/
theorem exec_outw_next {s t : State} :
    exec .outw s = .next t ↔ outwEnabled s = true ∧ t = answer (emitWord s) none := by
  cases h : outwEnabled s <;> simp [exec, execOutw, h, eq_comm]

/-- A step that gives a next state performs the operation that the first word of the trace decodes to. -/
theorem step_next {s t : State} :
    step s = .next t ↔
      ∃ w ws i, s.trace = w :: ws ∧ decode w = .ok i ∧ exec i { s with trace := ws } = .next t := by
  unfold step fetch
  cases hs : s.trace with
  | nil => simp
  | cons w ws =>
    cases hd : decode w with
    | error e => simp [hd]
    | ok i => simp [hd]

end Sys2Proof.Machine
end

