-- ==== Sys2Proof/Laws/HostSoftware.lean ====
section
/-! SUPPORT. Runs of lists joined together, and what one issued host operation does to the host and to the block. -/

namespace Sys2Proof.Machine

@[simp] theorem runOps_nil (s : State) : runOps [] s = .next s := rfl

/-- A run of a list is a step of its head and a run of its tail. -/
theorem runOps_cons_next {i : Instr} {is : List Instr} {s t : State} :
    runOps (i :: is) s = .next t ↔ ∃ u, exec i s = .next u ∧ runOps is u = .next t := by
  cases h : exec i s <;> simp [runOps, h]

/-- A run of two lists, one after the other. -/
theorem runOps_append_next {as bs : List Instr} {s t : State} :
    runOps (as ++ bs) s = .next t ↔ ∃ u, runOps as s = .next u ∧ runOps bs u = .next t := by
  induction as generalizing s with
  | nil => simp
  | cons i is ih =>
    simp only [List.cons_append, runOps_cons_next, ih]
    constructor
    · rintro ⟨u, h1, v, h2, h3⟩; exact ⟨v, ⟨u, h1, h2⟩, h3⟩
    · rintro ⟨v, ⟨u, h1, h2⟩, h3⟩; exact ⟨u, h1, v, h2, h3⟩

/-- An operation that completes is issued: the block takes its next state, and it is recorded (R230). -/
theorem issue_next {h : HostSide} {i : Instr} {t : State} (he : exec i h.block = .next t) :
    issue h i = { h with block := t, issued := h.issued ++ [i] } := by simp [issue, he]

/-- The cursor is the host's own: no operation moves it (R54). -/
@[simp] theorem issue_curCol (h : HostSide) (i : Instr) : (issue h i).curCol = h.curCol := by
  unfold issue; split <;> rfl

@[simp] theorem issue_curRow (h : HostSide) (i : Instr) : (issue h i).curRow = h.curRow := by
  unfold issue; split <;> rfl

@[simp] theorem issue_fbwr (h : HostSide) (x y z : Word) :
    issue h (.fbwr x y z) =
      { h with block := answer (portWriteFb h.block x y z) none, issued := h.issued ++ [.fbwr x y z] } := rfl

@[simp] theorem issue_fbrd (h : HostSide) (x y : Word) :
    issue h (.fbrd x y) =
      { h with block := answer h.block (some (.word16 (portReadFb h.block x y))),
               issued := h.issued ++ [.fbrd x y] } := rfl

@[simp] theorem issue_cellwr (h : HostSide) (x y z : Word) :
    issue h (.cellwr x y z) =
      { h with block := answer (portWriteCell h.block x y z) none, issued := h.issued ++ [.cellwr x y z] } := rfl

@[simp] theorem issue_cellrd (h : HostSide) (x y : Word) :
    issue h (.cellrd x y) =
      { h with block := answer h.block (some (.word16 (portReadCell h.block x y))),
               issued := h.issued ++ [.cellrd x y] } := rfl

@[simp] theorem issue_csenter (h : HostSide) :
    issue h .csenter = { h with block := answer (setHold h.block true) none, issued := h.issued ++ [.csenter] } := rfl

@[simp] theorem issue_csexit (h : HostSide) :
    issue h .csexit = { h with block := answer (setHold h.block false) none, issued := h.issued ++ [.csexit] } := rfl

end Sys2Proof.Machine
end

