-- ==== Sys2Proof/Laws/PerInstr.lean ====
section
/-! SUPPORT. The family of laws about every operation as it is written: its encoded word has the operands in their fields
and zero in every field its format requires to be zero (R92, R93, R94, R98). -/

namespace Sys2Proof.Laws.EncodedFields

/-- The word of `i` keeps the zero fields of its format, and its operands stand in `x`, `y`, `z` in order. -/
def Statement (i : Instr) : Prop :=
  zeroFieldsOk i.format (encode i) = true ∧
    i.operands = [xField (encode i), yField (encode i), zField (encode i)].take i.format.arity

/-- An assembled word without operands. -/
theorem ofN (op : Byte) : zeroFieldsOk .n (assembleWord op 0#16 0#16 0#16) = true := by
  simp [zeroFieldsOk, fField_assembleWord, xField_assembleWord, yField_assembleWord, zField_assembleWord]

/-- An assembled word with three operands. -/
theorem ofX3 (op : Byte) (x y z : Word) :
    zeroFieldsOk .x3 (assembleWord op x y z) = true ∧
      [x, y, z] = [xField (assembleWord op x y z), yField (assembleWord op x y z), zField (assembleWord op x y z)] := by
  simp [zeroFieldsOk, fField_assembleWord, xField_assembleWord, yField_assembleWord, zField_assembleWord]

/-- An assembled word with two operands. -/
theorem ofX2 (op : Byte) (x y : Word) :
    zeroFieldsOk .x2 (assembleWord op x y 0#16) = true ∧
      [x, y] = [xField (assembleWord op x y 0#16), yField (assembleWord op x y 0#16)] := by
  simp [zeroFieldsOk, fField_assembleWord, xField_assembleWord, yField_assembleWord, zField_assembleWord]

theorem reset : Statement .reset := ⟨ofN 0x01#8, rfl⟩

theorem pclk : Statement .pclk := ⟨ofN 0x02#8, rfl⟩

theorem eva : Statement .eva := ⟨ofN 0x03#8, rfl⟩

theorem evb : Statement .evb := ⟨ofN 0x04#8, rfl⟩

theorem outw : Statement .outw := ⟨ofN 0x05#8, rfl⟩

theorem cfgh (x y z : Word) : Statement (.cfgh x y z) := ofX3 0x10#8 x y z

theorem cfgv (x y z : Word) : Statement (.cfgv x y z) := ofX3 0x11#8 x y z

theorem cfgf (x y z : Word) : Statement (.cfgf x y z) := ofX3 0x12#8 x y z

theorem start : Statement .start := ⟨ofN 0x13#8, rfl⟩

theorem csenter : Statement .csenter := ⟨ofN 0x14#8, rfl⟩

theorem csexit : Statement .csexit := ⟨ofN 0x15#8, rfl⟩

theorem rdfc : Statement .rdfc := ⟨ofN 0x16#8, rfl⟩

theorem fbwr (x y z : Word) : Statement (.fbwr x y z) := ofX3 0x20#8 x y z

theorem fbrd (x y : Word) : Statement (.fbrd x y) := ofX2 0x21#8 x y

theorem cellwr (x y z : Word) : Statement (.cellwr x y z) := ofX3 0x22#8 x y z

theorem cellrd (x y : Word) : Statement (.cellrd x y) := ofX2 0x23#8 x y

end Sys2Proof.Laws.EncodedFields
end

