-- ==== Sys2Proof/Machine/Assembly.lean ====
section
/-! DEFINITION. The assembler notation of R102: an operation as text, and text as an operation. Text is a list of
characters. -/

namespace Sys2Proof.Machine

/-- The value of a digit in base 10 or 16, if it is one. -/
def digitValue (base : Nat) (c : Char) : Option Nat :=
  let v :=
    if '0' ≤ c ∧ c ≤ '9' then c.toNat - '0'.toNat
    else if 'a' ≤ c ∧ c ≤ 'f' then c.toNat - 'a'.toNat + 10
    else if 'A' ≤ c ∧ c ≤ 'F' then c.toNat - 'A'.toNat + 10
    else 16
  if v < base then some v else none

/-- The number whose digits stand after those that make `acc`. -/
def parseDigits (base : Nat) : List Char → Nat → Option Nat
  | [], acc => some acc
  | c :: cs, acc =>
    match digitValue base c with
    | none => none
    | some d => parseDigits base cs (acc * base + d)

/-- A number: decimal, or hexadecimal with the prefix 0x (R102). -/
def parseNumber : List Char → Option Nat
  | [] => none
  | '0' :: 'x' :: c :: cs => parseDigits 16 (c :: cs) 0
  | c :: cs => parseDigits 10 (c :: cs) 0

/-- The text without spaces at either end. -/
def trim (cs : List Char) : List Char := ((cs.dropWhile (· == ' ')).reverse.dropWhile (· == ' ')).reverse

/-- The parts of a text between separators. -/
def splitAt (sep : Char) : List Char → List (List Char)
  | [] => [[]]
  | c :: cs =>
    match splitAt sep cs with
    | [] => [[]]
    | p :: ps => if c = sep then [] :: p :: ps else (c :: p) :: ps

/-- The text before an arrow, after which a result is shown (R102). -/
def beforeArrow : List Char → List Char
  | [] => []
  | '-' :: '>' :: _ => []
  | c :: cs => c :: beforeArrow cs

/-- The operation that one line spells: the mnemonic, then the operands separated by commas; what stands after a
semicolon is a comment, and after an arrow a result (R102). -/
def parseLine (text : List Char) : Option SourceOp :=
  let body := trim (beforeArrow (text.takeWhile (· != ';')))
  let name := body.takeWhile (· != ' ')
  let rest := trim (body.dropWhile (· != ' '))
  if name = [] then none
  else if rest = [] then some { name := name, args := [] }
  else ((splitAt ',' rest).mapM fun p => parseNumber (trim p)).map fun ns => { name := name, args := ns }

/-- The operation of a mnemonic and its operands, whose number and size `SourceOp.wf` has checked (R96). -/
def instrOfSource (name : List Char) (x y z : Word) : Option Instr :=
  [Instr.reset, .pclk, .eva, .evb, .outw, .cfgh x y z, .cfgv x y z, .cfgf x y z, .start, .csenter, .csexit, .rdfc,
   .fbwr x y z, .fbrd x y, .cellwr x y z, .cellrd x y].find? fun i => i.mnemonic.toList == name

/-- The operation that a well-formed operation in text is; none for an ill-formed one (R95, R102). -/
def assemble (o : SourceOp) : Option Instr :=
  if o.wf then
    instrOfSource o.name (BitVec.ofNat 16 (o.args.getD 0 0)) (BitVec.ofNat 16 (o.args.getD 1 0))
      (BitVec.ofNat 16 (o.args.getD 2 0))
  else none

/-- An operation as its text spells it: the mnemonic and the operands in the order `x`, `y`, `z` (R102). -/
def sourceOf (i : Instr) : SourceOp := { name := i.mnemonic.toList, args := i.operands.map (·.toNat) }

/-- The text of an operation: its mnemonic, then its operands in decimal (R102). -/
def instrText (i : Instr) : List Char :=
  let args := i.operands.map fun w => Nat.toDigits 10 w.toNat
  if args = [] then i.mnemonic.toList else i.mnemonic.toList ++ ' ' :: (args.intersperse [',', ' ']).flatten

end Sys2Proof.Machine
end

