-- ==== Sys2Proof/Tests/Slice0.lean ====
section
/-! SUPPORT. The model's own tests: ill-formed terms that the checks refuse, written words that decode, one step of each
operation on the spec's vectors (95_test_vectors.md), and for each obligation with hypotheses a state that meets them. -/

namespace Sys2Proof.Tests

open Sys2Proof.Machine

/-! ## Parameter sets and states -/

/-- The parameters T1 of 95_test_vectors.md. -/
def paramsT1 : Params where
  content := .bitmap 2
  hVisible := 32
  fifoDepth := 1
  glyphUnknown := 0x03
  charset := [(65, 1), (66, 2)]
  tabInterval := 4
  hsyncActive := true
  vsyncActive := true
  pixActive := true

/-- The parameters T2 of 95_test_vectors.md. -/
def paramsT2 : Params := { paramsT1 with content := .text 2 2 [0x00, 0x00, 0x18, 0x24, 0x3C, 0x42] }

def cfgT1 : Config := ⟨paramsT1, by decide⟩
def cfgT2 : Config := ⟨paramsT2, by decide⟩

/-- T2 with `H_VISIBLE = 24`: three text columns, so an odd column at the end (RV15). -/
def cfgOdd : Config := ⟨{ paramsT2 with hVisible := 24 }, by decide⟩

/-- A text grid of two columns (HV1). -/
def cfgTwo : Config := ⟨{ paramsT2 with hVisible := 16 }, by decide⟩

/-- The configuration of T1. -/
def timingT1 : FrameTiming := ⟨48#16, 4#16, 8#16, 1#16, 1#16, 4#16, 1#16, 7#16, 2#16⟩

/-- The smallest configuration that `START` accepts: one pixel clock a line, four lines. -/
def timingTiny : FrameTiming := ⟨1#16, 0#16, 0#16, 1#16, 1#16, 1#16, 1#16, 4#16, 1#16⟩

/-- The bitmap store of T1. -/
def fbT1 : Memory Word := [(0, 0xF00F#16), (1, 0x8001#16), (65536, 0xAAAA#16), (65537, 0x5555#16)]

/-- The text store of T2. -/
def cellT2 : Memory TextCell :=
  [(0, ⟨false, 1⟩), (1, ⟨true, 2⟩), (2, ⟨false, 0⟩), (3, ⟨false, 0⟩), (65536, ⟨false, 0⟩), (65537, ⟨false, 0⟩),
   (65538, ⟨false, 2⟩), (65539, ⟨true, 0⟩)]

/-- T1, configured and with its store written, not started. -/
def readyT1 : State := { State.powerOn cfgT1 with timing := timingT1, fb := fbT1 }

/-- T2, the same. -/
def readyT2 : State := { State.powerOn cfgT2 with timing := { timingT1 with vScale := 1#16 }, cell := cellT2 }

/-- A running state of `s` in the given line, pixel clock and flags; the visible line and `VSYNC` as they belong. -/
def running (s : State) (line hcnt : Nat) (a b : Bool) : State :=
  { s with
    control := { s.control with run := true }
    seq := { line := BitVec.ofNat 16 line, frame := 1#32, visibleLine := visibleLineOf s.timing line,
             vsync := decide (line < s.timing.vSync.toNat) }
    timer := { hcnt := BitVec.ofNat 16 hcnt, pendA := a, pendB := b }
    rl := [0xF00F#16, 0x8001#16] }

/-- T1 at the start of line 1, event A pending: the next `EVA` shows visible line 0. -/
def beforeVisible : State := running readyT1 1 0 true false

/-- T1 at the data start of line 2, event B pending. -/
def beforeEvb : State := running readyT1 2 8 false true

/-- T1 in line 2 with the clock-out at the given word and the given shifter. -/
def emittingAt (idx : Nat) (sh : Shifter) : State :=
  { running readyT1 2 8 false false with out := { emitting := true, outIdx := BitVec.ofNat 16 idx }, shifter := sh }

/-- A FIFO of one word, full at depth 1, and a word with 15 bits left. -/
def fullShifter : Shifter := { fifo := [0x8001#16], shReg := 0xE01E#16, shCnt := 15, pix := true }

/-- The smallest configuration, running, at the end of the last line. -/
def tinyRun : State := running { State.powerOn cfgT1 with timing := timingTiny, fb := fbT1 } 3 0 false false

/-- The next state, if there is one. -/
def nextOf (o : Host.Outcome State Fault Refusal) : Option State :=
  match o with
  | .next t => some t
  | .fault _ => none
  | .refused _ => none

/-! ## The checks refuse ill-formed terms -/

theorem test_params_ok : paramsT1.wf = true ∧ paramsT2.wf = true := by decide
theorem test_params_no_rows : { paramsT1 with content := .bitmap 0 }.wf = false := by decide
theorem test_params_too_many_rows : { paramsT1 with content := .bitmap 65536 }.wf = false := by decide
theorem test_params_no_width : { paramsT1 with hVisible := 0 }.wf = false := by decide
theorem test_params_too_wide : { paramsT1 with hVisible := 65536 }.wf = false := by decide
theorem test_params_no_fifo : { paramsT1 with fifoDepth := 0 }.wf = false := by decide
theorem test_params_no_tab : { paramsT1 with tabInterval := 0 }.wf = false := by decide
theorem test_params_no_text_rows : { paramsT2 with content := .text 0 2 [] }.wf = false := by decide
theorem test_params_no_glyph_height : { paramsT2 with content := .text 2 0 [] }.wf = false := by decide
theorem test_params_blank_not_blank : { paramsT2 with content := .text 2 2 [0x00, 0x01] }.wf = false := by decide

/-- EV19 to EV27: a reserved opcode, `f`, or a field the format requires to be zero (R97, R98). -/
theorem test_words_refused :
    [0x0000000000000000#64, 0x0600000000000000#64, 0x1700000000000000#64, 0x2400000000000000#64,
     0xFF00000000000000#64, 0x0200000000000001#64, 0x1301000000000000#64, 0x2100000100000001#64,
     0x2001000100008001#64, 0x10FFFFFFFFFFFFFF#64].all (fun w => !OpWord.wf w) = true := by decide

theorem test_trace_refused : traceWf [0x0200000000000000#64, 0x0000000000000000#64] = false := by decide
theorem test_trace_ok : traceWf [0x0200000000000000#64, 0x2100000100000000#64] = true := by decide
theorem test_source_ok : SourceOp.wf ⟨['C', 'F', 'G', 'H'], [48, 4, 8]⟩ = true := by decide
theorem test_source_unknown_name : SourceOp.wf ⟨['N', 'O', 'P'], []⟩ = false := by decide
theorem test_source_operand_missing : SourceOp.wf ⟨['F', 'B', 'R', 'D'], [1]⟩ = false := by decide
theorem test_source_operand_too_big : SourceOp.wf ⟨['F', 'B', 'R', 'D'], [1, 65536]⟩ = false := by decide

/-! ## Decoding and the notation -/

/-- EV1 to EV16 and EV18: every operation's word, written out from its encoding. -/
theorem test_decode_words :
    decode 0x0100000000000000#64 = .ok .reset ∧ decode 0x0200000000000000#64 = .ok .pclk ∧
    decode 0x0300000000000000#64 = .ok .eva ∧ decode 0x0400000000000000#64 = .ok .evb ∧
    decode 0x0500000000000000#64 = .ok .outw ∧
    decode 0x1000003000040008#64 = .ok (.cfgh 48#16 4#16 8#16) ∧
    decode 0x1100000100010004#64 = .ok (.cfgv 1#16 1#16 4#16) ∧
    decode 0x1200000100070002#64 = .ok (.cfgf 1#16 7#16 2#16) ∧
    decode 0x1300000000000000#64 = .ok .start ∧ decode 0x1400000000000000#64 = .ok .csenter ∧
    decode 0x1500000000000000#64 = .ok .csexit ∧ decode 0x1600000000000000#64 = .ok .rdfc ∧
    decode 0x2000000100008001#64 = .ok (.fbwr 1#16 0#16 0x8001#16) ∧
    decode 0x2100000100000000#64 = .ok (.fbrd 1#16 0#16) ∧
    decode 0x2200000100008002#64 = .ok (.cellwr 1#16 0#16 0x8002#16) ∧
    decode 0x2300000300010000#64 = .ok (.cellrd 3#16 1#16) ∧
    decode 0x1000FFFFFFFFFFFF#64 = .ok (.cfgh 0xFFFF#16 0xFFFF#16 0xFFFF#16) := by
  refine ⟨rfl, rfl, rfl, rfl, rfl, rfl, rfl, rfl, rfl, rfl, rfl, rfl, rfl, rfl, rfl, rfl, rfl⟩

/-- EV17, EV19, EV24 are rejected by name. -/
theorem test_decode_rejects :
    decode 0x10FFFFFFFFFFFFFF#64 = .error (.reservedField 0x10#8) ∧
    decode 0x0000000000000000#64 = .error (.reservedOpcode 0x00#8) ∧
    decode 0x0200000000000001#64 = .error (.reservedField 0x02#8) := ⟨rfl, rfl, rfl⟩

/-- The examples of R102: a line of text is the operation whose word the rule gives. -/
theorem test_assemble_line :
    (parseLine "CFGH 48, 0x4, 8 ; a comment".toList).bind assemble = some (.cfgh 48#16 4#16 8#16) ∧
    (parseLine "FBRD 1, 0 -> 0x8001".toList).bind assemble = some (.fbrd 1#16 0#16) ∧
    (parseLine "PCLK".toList).bind assemble = some .pclk := by decide

/-! ## One step of each operation -/

/-- R53, R291: the words in the FIFO are discarded. -/
theorem test_reset : (nextOf (exec .reset (emittingAt 1 fullShifter))).map (fun t =>
    (t.control.run, t.shifter.fifo, t.timing.hTotal, t.config.val.hVisible)) = some (false, [], 0#16, 32) := by decide

/-- TV4: event B is raised while event A waits. -/
theorem test_pclk_timer : (nextOf (exec .pclk (running readyT1 2 7 true false))).map (fun t => (t.timer, t.miss)) =
    some (⟨8#16, true, true⟩, true) := by decide

/-- OV10: the last bit leaves, and the reload waits for the next tick. -/
theorem test_pclk_shifter : (nextOf (exec .pclk (emittingAt 1 ⟨[0x8001#16], 0x8000#16, 1, false⟩))).map (·.shifter) =
    some ⟨[0x8001#16], 0x0000#16, 0, true⟩ := by decide

/-- SV3: visible line 0 is rendered from stored row 0. -/
theorem test_eva_visible : (nextOf (exec .eva beforeVisible)).map (fun t => (t.seq.line, t.seq.visibleLine, t.rl)) =
    some (2#16, some 0#16, [0xF00F#16, 0x8001#16]) := by decide

/-- SV8: the wrap of `LINE` and of `FRAME`. -/
theorem test_eva_wraps : (nextOf (exec .eva
      { running readyT1 6 0 true false with seq := ⟨6#16, 0xFFFFFFFF#32, none, false⟩ })).map (·.seq) =
    some ⟨0#16, 0#32, none, true⟩ := by decide

/-- OV1. -/
theorem test_evb_begins : (nextOf (exec .evb beforeEvb)).map (fun t => (t.timer.pendB, t.out)) =
    some (false, ⟨true, 0#16⟩) := by decide

/-- OV3: event A first. -/
theorem test_evb_waits : (nextOf (exec .evb (running readyT1 2 8 true true))).isNone = true := by decide

/-- OV4. -/
theorem test_outw_first : (nextOf (exec .outw (emittingAt 0 ⟨[], 0#16, 0, false⟩))).map (fun t =>
    (t.shifter.fifo, t.out)) = some ([0xF00F#16], ⟨true, 1#16⟩) := by decide

/-- OV6: the last word. -/
theorem test_outw_last : (nextOf (exec .outw (emittingAt 1 ⟨[], 0#16, 0, false⟩))).map (fun t =>
    (t.shifter.fifo, t.out)) = some ([0x8001#16], ⟨false, 0#16⟩) := by decide

/-- R204: the operand order. -/
theorem test_cfgh : (nextOf (exec (.cfgh 100#16 5#16 9#16) readyT1)).map (·.timing) =
    some { timingT1 with hTotal := 100#16, hSyncEnd := 5#16, hDataStart := 9#16 } := by decide

/-- R205: the operand order. -/
theorem test_cfgv : (nextOf (exec (.cfgv 2#16 3#16 5#16) readyT1)).map (·.timing) =
    some { timingT1 with vSync := 2#16, vBack := 3#16, vVisible := 5#16 } := by decide

/-- R206: the operand order. -/
theorem test_cfgf : (nextOf (exec (.cfgf 2#16 9#16 3#16) readyT1)).map (·.timing) =
    some { timingT1 with vFront := 2#16, vTotal := 9#16, vScale := 3#16 } := by decide

/-- CV4: four checks fail at once. -/
theorem test_start_fails : (nextOf (exec .start
      { readyT1 with timing := ⟨48#16, 48#16, 8#16, 1#16, 0#16, 4#16, 1#16, 7#16, 0#16⟩ })).map (fun t =>
    (t.result, t.control)) = some (some (.word32 0x0F#32), ⟨false, false, 0x0F#5⟩) := by decide

/-- CV5. -/
theorem test_start_runs : (nextOf (exec .start readyT1)).map (fun t =>
    (t.result, t.control.run, t.seq, t.timer.hcnt)) =
    some (some (.word32 0#32), true, ⟨6#16, 0#32, none, false⟩, 0#16) := by decide

/-- KV1 and its converse. -/
theorem test_csenter : (nextOf (exec .csenter readyT1)).map (·.control.hold) = some true := by decide

theorem test_csexit : (nextOf (exec .csexit { readyT1 with control := ⟨false, true, 0#5⟩ })).map (·.control.hold) =
    some false := by decide

/-- R220: after the first `EVA`. -/
theorem test_rdfc : (nextOf (exec .rdfc beforeEvb)).map (·.result) = some (some (.word32 0x00000001#32)) := by decide

/-- MV3. -/
theorem test_fbwr : (nextOf (exec (.fbwr 1#16 0#16 0x1234#16) readyT1)).map (·.fb) =
    some [(0, 0xF00F#16), (1, 0x1234#16), (65536, 0xAAAA#16), (65537, 0x5555#16)] := by decide

/-- MV4 and MV5: out of range by column, and by row. -/
theorem test_fbwr_out_of_range : (nextOf (exec (.fbwr 2#16 0#16 0xFFFF#16) readyT1)).map (·.fb) = some fbT1 ∧
    (nextOf (exec (.fbwr 0#16 2#16 0xFFFF#16) readyT1)).map (·.fb) = some fbT1 := by decide

/-- MV2. -/
theorem test_fbrd : (nextOf (exec (.fbrd 1#16 1#16) readyT1)).map (·.result) =
    some (some (.word16 0x5555#16)) := by decide

/-- MV7, and MV19 on the other variant. -/
theorem test_fbrd_out_of_range : (nextOf (exec (.fbrd 0xFFFF#16 0xFFFF#16) readyT1)).map (·.result) =
      some (some (.word16 0x0000#16)) ∧
    (nextOf (exec (.fbrd 0#16 0#16) readyT2)).map (·.result) = some (some (.word16 0x0000#16)) := by decide

/-- MV14: bits 14:8 are dropped. -/
theorem test_cellwr : (nextOf (exec (.cellwr 2#16 0#16 0x7F05#16) readyT2)).map (fun t => readCell t 0 2) =
    some ⟨false, 0x05#8⟩ := by decide

/-- MV16 and MV17. -/
theorem test_cellwr_out_of_range : (nextOf (exec (.cellwr 4#16 0#16 0x0001#16) readyT2)).map (·.cell) = some cellT2 ∧
    (nextOf (exec (.cellwr 0#16 2#16 0x0001#16) readyT2)).map (·.cell) = some cellT2 := by decide

/-- MV13. -/
theorem test_cellrd : (nextOf (exec (.cellrd 3#16 1#16) readyT2)).map (·.result) =
    some (some (.word16 0x8000#16)) := by decide

/-- MV18, and MV9 on the other variant. -/
theorem test_cellrd_out_of_range : (nextOf (exec (.cellrd 4#16 0#16) readyT2)).map (·.result) =
      some (some (.word16 0x0000#16)) ∧
    (nextOf (exec (.cellrd 0#16 0#16) readyT1)).map (·.result) = some (some (.word16 0x0000#16)) := by decide

/-- RV10 to RV14: the text renderer. -/
theorem test_render_text : (List.range 5).map (renderLine readyT2) =
    [[0x18C3#16, 0x0000#16], [0x24BD#16, 0x0000#16], [0x0000#16, 0x3CFF#16], [0x0000#16, 0x42FF#16],
     [0x0000#16, 0x0000#16]] := by decide

/-- RV15: the column beyond an odd number of columns is blank. -/
theorem test_render_odd_columns : renderLine { readyT2 with
      config := cfgOdd, cell := [(0, ⟨false, 1⟩), (1, ⟨true, 2⟩), (2, ⟨false, 2⟩)] } 0 =
    [0x18C3#16, 0x3C00#16] := by decide

/-- HV7's kind: the rasterised diagonal of R242 from either end. -/
theorem test_diagonal : (rasterLine 9 9 0 0).reverse = rasterLine 0 0 9 9 ∧
    rasterLine 0 0 9 9 = (List.range 10).map (fun k => ((k : Int), (k : Int))) := by decide

/-! ## States that meet the hypotheses of the obligations -/

/-- A running state of T1 as built above has the invariant. -/
theorem inv_beforeVisible : Inv beforeVisible where
  stopped := fun h => absurd h (by decide)
  running := fun _ => ⟨by decide, by decide, by decide, by decide, by decide, by decide⟩
  pipe := ⟨by decide, by decide, by decide, by decide, by decide, by decide, by decide⟩
  store := ⟨by decide, by decide, by decide, by decide⟩

theorem inv_beforeEvb : Inv beforeEvb where
  stopped := fun h => absurd h (by decide)
  running := fun _ => ⟨by decide, by decide, by decide, by decide, by decide, by decide⟩
  pipe := ⟨by decide, by decide, by decide, by decide, by decide, by decide, by decide⟩
  store := ⟨by decide, by decide, by decide, by decide⟩

theorem inv_emitting : Inv (emittingAt 1 fullShifter) where
  stopped := fun h => absurd h (by decide)
  running := fun _ => ⟨by decide, by decide, by decide, by decide, by decide, by decide⟩
  pipe := ⟨by decide, by decide, by decide, by decide, by decide, by decide, by decide⟩
  store := ⟨by decide, by decide, by decide, by decide⟩

theorem inv_wrap : Inv (running readyT1 6 0 true false) where
  stopped := fun h => absurd h (by decide)
  running := fun _ => ⟨by decide, by decide, by decide, by decide, by decide, by decide⟩
  pipe := ⟨by decide, by decide, by decide, by decide, by decide, by decide, by decide⟩
  store := ⟨by decide, by decide, by decide, by decide⟩

theorem inv_tinyRun : Inv tinyRun where
  stopped := fun h => absurd h (by decide)
  running := fun _ => ⟨by decide, by decide, by decide, by decide, by decide, by decide⟩
  pipe := ⟨by decide, by decide, by decide, by decide, by decide, by decide, by decide⟩
  store := ⟨by decide, by decide, by decide, by decide⟩

/-- The last pixel clock of a line, and the one before data start, in a state of the invariant. -/
theorem inv_lineEnd : Inv (running readyT1 2 47 false false) ∧ Inv (running readyT1 2 7 false false) := by
  constructor <;> exact
    { stopped := fun h => absurd h (by decide)
      running := fun _ => ⟨by decide, by decide, by decide, by decide, by decide, by decide⟩
      pipe := ⟨by decide, by decide, by decide, by decide, by decide, by decide, by decide⟩
      store := ⟨by decide, by decide, by decide, by decide⟩ }

theorem inv_readyT1 : Inv readyT1 where
  stopped := fun _ => ⟨rfl, rfl, rfl, rfl, rfl, rfl⟩
  running := fun h => absurd h (by decide)
  pipe := ⟨by decide, by decide, by decide, by decide, by decide, by decide, by decide⟩
  store := ⟨by decide, by decide, by decide, by decide⟩

theorem witness_EncodeInvertsDecode : ∃ w i, decode w = .ok i := ⟨0x1000FFFFFFFFFFFF#64, _, rfl⟩

/-- Each range of reserved opcodes at both ends, and each field that must be zero. -/
theorem witness_ReservedWordsAreRejected :
    (∀ n ∈ [0x00, 0x06, 0x0F, 0x17, 0x1F, 0x24, 0xFF], (opField (BitVec.ofNat 64 (n * 2 ^ 56))).toNat = n) ∧
    fField 0x10FFFFFFFFFFFFFF#64 ≠ 0#8 ∧
    ((opField 0x0200000000000001#64, Format.n) ∈ opcodeMap ∧ zField 0x0200000000000001#64 ≠ 0#16) ∧
    ((opField 0x0300000000010000#64, Format.n) ∈ opcodeMap ∧ yField 0x0300000000010000#64 ≠ 0#16) ∧
    ((opField 0x1600000100000000#64, Format.n) ∈ opcodeMap ∧ xField 0x1600000100000000#64 ≠ 0#16) ∧
    (opField 0x210000010000FFFF#64, Format.x2) ∈ opcodeMap ∧ zField 0x210000010000FFFF#64 ≠ 0#16 := by decide

theorem witness_StepRunsTheDecodedOperation :
    ∃ (s : State) (w : OpWord) (ws : List OpWord) (i : Instr), s.trace = w :: ws ∧ decode w = .ok i :=
  ⟨loadTrace beforeEvb [0x0400000000000000#64], _, _, .evb, rfl, rfl⟩

theorem witness_StepRefusesInvalidWords :
    (∃ (s : State) (w : OpWord) (ws : List OpWord) (e : DecodeReject), s.trace = w :: ws ∧ decode w = .error e) ∧
    ∃ s : State, s.trace = [] :=
  ⟨⟨loadTrace readyT1 [0x0000000000000000#64], _, _, _, rfl, rfl⟩, readyT1, rfl⟩

/-- Each service is enabled in some state, and not enabled in another. -/
theorem witness_OperationsCompleteExactlyWhenEnabled :
    evaEnabled beforeVisible = true ∧ evbEnabled beforeEvb = true ∧
    outwEnabled (emittingAt 1 ⟨[], 0#16, 0, false⟩) = true ∧ evaEnabled beforeEvb = false ∧
    evbEnabled beforeVisible = false ∧ outwEnabled (emittingAt 1 fullShifter) = false := by decide

/-- A stopped block; a running one at the wrap, at data start, and at both at once. -/
theorem witness_PixelClockAdvancesTheTimer :
    readyT1.control.run = false ∧ (running readyT1 2 47 false false).control.run = true ∧
    nextHcnt (running readyT1 2 47 false false) = 0 ∧ nextHcnt (running readyT1 2 7 false false) = 8 ∧
    nextHcnt tinyRun = 0 ∧ tinyRun.timing.hDataStart.toNat = 0 := by decide

theorem witness_PixelClockShiftsOneBit :
    readyT1.control.run = false ∧
    ((emittingAt 1 fullShifter).control.run = true ∧ 0 < (emittingAt 1 fullShifter).shifter.shCnt.val) ∧
    (∃ w q, (emittingAt 1 ⟨[0x8001#16], 0#16, 0, false⟩).shifter.shCnt.val = 0 ∧
      (emittingAt 1 ⟨[0x8001#16], 0#16, 0, false⟩).shifter.fifo = w :: q) ∧
    beforeEvb.control.run = true ∧ beforeEvb.shifter.shCnt.val = 0 ∧ beforeEvb.shifter.fifo = [] :=
  ⟨by decide, by decide, ⟨_, _, by decide, rfl⟩, by decide, by decide, by decide⟩

theorem witness_EvaAdvancesTheLine :
    ∃ s : State, s.control.run = true ∧ s.timer.pendA = true ∧ s.control.hold = false ∧ s.out.emitting = false :=
  ⟨running readyT1 6 0 true false, by decide⟩

/-- Into the first and the last visible line, and out of the band. -/
theorem witness_EvaShowsTheVisibleLine :
    (nextOf (exec .eva beforeVisible)).map (·.seq.line) = some 2#16 ∧
    (nextOf (exec .eva (running readyT1 4 0 true false))).map (·.seq.line) = some 5#16 ∧
    (nextOf (exec .eva (running readyT1 5 0 true false))).map (·.seq.line) = some 6#16 ∧
    beforeVisible.timing.visibleFrom = 2 ∧ beforeVisible.timing.visibleTo = 6 := by decide

theorem witness_EvbBeginsTheClockOut :
    ∃ s : State, s.control.run = true ∧ s.timer.pendB = true ∧ s.timer.pendA = false ∧ s.control.hold = false ∧
      s.out.emitting = false := ⟨beforeEvb, by decide⟩

/-- At the first and at the last word of the line. -/
theorem witness_OutwPushesTheNextWord : ∀ k ∈ [0, 1],
    (emittingAt k ⟨[], 0#16, 0, false⟩).control.run = true ∧
    (emittingAt k ⟨[], 0#16, 0, false⟩).out.emitting = true ∧
    (emittingAt k ⟨[], 0#16, 0, false⟩).shifter.fifo.length <
      (emittingAt k ⟨[], 0#16, 0, false⟩).config.val.fifoDepth := by decide

/-- Setup open; closed by `RUN`; closed by `CFGERR`. -/
theorem witness_ConfigurationWrites :
    (readyT1.control.run = false ∧ readyT1.control.cfgErr = 0#5) ∧ beforeEvb.control.run = true ∧
    { readyT1 with control := ⟨false, false, 0x0E#5⟩ }.control.cfgErr ≠ 0#5 := by decide

theorem witness_CheckReportsEveryFailure : checkMask paramsT1 timingT1 = 0#5 ∧ checkMask paramsT1 timingTiny = 0#5 := by
  decide

/-- Each case of `START`; the failing one at its boundary, an offset equal to `H_TOTAL` (CV9). -/
theorem witness_StartReportsOrRuns :
    beforeEvb.control.run = true ∧
    (readyT1.control.run = false ∧ readyT1.control.cfgErr = 0#5 ∧
      checkMask paramsT1 { timingT1 with hDataStart := 48#16 } ≠ 0#5) ∧
    checkMask readyT1.config.val readyT1.timing = 0#5 := by decide

/-- The last element in range, the first beyond it by column and by row, and the other variant. -/
theorem witness_BitmapPort :
    (∃ rows, readyT1.config.val.content = .bitmap rows ∧ (1#16).toNat < rows ∧ (1#16).toNat < readyT1.config.val.wpl) ∧
    (¬∃ rows, readyT1.config.val.content = .bitmap rows ∧ (1#16).toNat < rows ∧
      (2#16).toNat < readyT1.config.val.wpl) ∧
    (¬∃ rows, readyT1.config.val.content = .bitmap rows ∧ (2#16).toNat < rows ∧
      (1#16).toNat < readyT1.config.val.wpl) ∧
    ¬∃ rows, readyT2.config.val.content = .bitmap rows ∧ (0#16).toNat < rows ∧
      (0#16).toNat < readyT2.config.val.wpl := by
  refine ⟨⟨2, rfl, by decide, by decide⟩, ?_, ?_, ?_⟩
  · rintro ⟨r, _, _, h⟩; revert h; decide
  · rintro ⟨r, h, h2, _⟩; cases h; revert h2; decide
  · rintro ⟨r, h, _⟩; cases h

/-- The same for the text port. -/
theorem witness_TextPort :
    (∃ rows h font, readyT2.config.val.content = .text rows h font ∧ (1#16).toNat < rows ∧
      (3#16).toNat < readyT2.config.val.textCols) ∧
    (¬∃ rows h font, readyT2.config.val.content = .text rows h font ∧ (1#16).toNat < rows ∧
      (4#16).toNat < readyT2.config.val.textCols) ∧
    (¬∃ rows h font, readyT2.config.val.content = .text rows h font ∧ (2#16).toNat < rows ∧
      (3#16).toNat < readyT2.config.val.textCols) ∧
    ¬∃ rows h font, readyT1.config.val.content = .text rows h font ∧ (0#16).toNat < rows ∧
      (0#16).toNat < readyT1.config.val.textCols := by
  refine ⟨⟨2, 2, _, rfl, by decide, by decide⟩, ?_, ?_, ?_⟩
  · rintro ⟨r, g, f, _, _, h⟩; revert h; decide
  · rintro ⟨r, g, f, h, h2, _⟩; cases h; revert h2; decide
  · rintro ⟨r, g, f, h, _⟩; cases h

/-- Stored rows at both ends of the content and the line beyond it. -/
theorem witness_BitmapRowsAreCopied :
    readyT1.config.val.content = .bitmap 2 ∧ readyT1.config.val.wpl = 2 ∧
    3 / readyT1.timing.vScale.toNat < 2 ∧ ¬4 / readyT1.timing.vScale.toNat < 2 := by decide

/-- The last column and row of the grid, the column beyond it, the row beyond it. -/
theorem witness_TextCellsArePacked :
    cfgOdd.val.content = .text 2 2 [0x00, 0x00, 0x18, 0x24, 0x3C, 0x42] ∧ 2 * cfgOdd.val.wpl = 4 ∧
    cfgOdd.val.textCols = 3 ∧ 3 / 2 < 2 ∧ ¬4 / 2 < 2 := by decide

theorem witness_WrittenGlyphIsRendered :
    ∃ (h : HostSide) (rows glyphH : Nat) (font : List Byte) (c r fr : Nat),
      h.block.config.val.content = .text rows glyphH font ∧ Memory.wf h.block.cell = true ∧
      c < h.block.config.val.textCols ∧ r < rows ∧ fr < glyphH :=
  ⟨hostStart readyT2, 2, 2, _, 3, 1, 1, rfl, by decide, by decide, by decide, by decide⟩

/-- The first line beyond the content, on either variant. -/
theorem witness_BlankBeyondContent :
    (readyT1.config.val.content = .bitmap 2 ∧ 1 ≤ readyT1.timing.vScale.toNat ∧
      2 * readyT1.timing.vScale.toNat ≤ 4) ∧
    readyT2.config.val.content = .text 2 2 [0x00, 0x00, 0x18, 0x24, 0x3C, 0x42] ∧ 2 * 2 ≤ 4 := by decide

theorem witness_BitmapReadAfterWrite : Memory.wf readyT1.fb = true := by decide

theorem witness_TextReadAfterWrite : Memory.wf readyT2.cell = true := by decide

theorem witness_StepKeepsTheInvariant : ∃ s t : State, Inv s ∧ step s = .next t :=
  ⟨loadTrace beforeVisible [0x0300000000000000#64], _,
    { stopped := fun h => absurd h (by decide)
      running := fun _ => ⟨by decide, by decide, by decide, by decide, by decide, by decide⟩
      pipe := ⟨by decide, by decide, by decide, by decide, by decide, by decide, by decide⟩
      store := ⟨by decide, by decide, by decide, by decide⟩ }, rfl⟩

/-- The shortest trace from power-on to a visible line: three configuration words, `START`, three times `PCLK`, `EVA`. -/
theorem witness_RunsKeepTheRasterInvariants :
    ∃ t, Host.Core.run Sys2Proof.core 10 (loadTrace (State.powerOn cfgT2)
        [0x1000000100000000#64, 0x1100000100010001#64, 0x1200000100040001#64, 0x1300000000000000#64,
         0x0200000000000000#64, 0x0300000000000000#64, 0x0200000000000000#64, 0x0300000000000000#64,
         0x0200000000000000#64, 0x0300000000000000#64]) = .next t ∧
      t.control.run = true ∧ t.seq.visibleLine = some 0#16 := ⟨_, rfl, rfl, rfl⟩

theorem witness_ParametersNeverChange : ∃ (i : Instr) (s t : State), exec i s = .next t ∧ i ≠ .reset :=
  ⟨.csenter, readyT1, _, rfl, by decide⟩

theorem witness_ConfigurationIsFrozen :
    ∃ (i : Instr) (s t : State), exec i s = .next t ∧ t.timing ≠ s.timing :=
  ⟨.cfgf 1#16 8#16 2#16, readyT1, _, rfl, by decide⟩

/-- Each clause: a running block, a `START`, a recorded error, a failing `START`, a change of `HOLD`. -/
theorem witness_RunAndErrorAreSticky :
    (∃ t, exec .pclk beforeEvb = .next t ∧ beforeEvb.control.run = true) ∧
    (∃ t, exec .start readyT1 = .next t ∧ readyT1.control.run = false ∧ t.control.run = true) ∧
    (∃ s t, exec .start s = .next t ∧ s.control.cfgErr ≠ 0#5) ∧
    (∃ s t, exec .start s = .next t ∧ s.control.cfgErr = 0#5 ∧ t.control.cfgErr ≠ 0#5) ∧
    ∃ t, exec .csenter readyT1 = .next t ∧ t.control.hold ≠ readyT1.control.hold :=
  ⟨⟨_, rfl, by decide⟩, ⟨_, rfl, by decide, by decide⟩,
    ⟨{ readyT1 with control := ⟨false, false, 0x01#5⟩ }, _, rfl, by decide⟩,
    ⟨State.powerOn cfgT1, _, rfl, by decide, by decide⟩, ⟨_, rfl, by decide⟩⟩

/-- Each clause: `EVA` at the wrap and not at it, `RESET`, `START`, another operation, `RDFC`. -/
theorem witness_FrameCountsLineWraps :
    (∃ t, Inv (running readyT1 6 0 true false) ∧ exec .eva (running readyT1 6 0 true false) = .next t) ∧
    (∃ t, Inv beforeVisible ∧ exec .eva beforeVisible = .next t) ∧
    (∃ t, Inv beforeEvb ∧ exec .reset beforeEvb = .next t) ∧
    (∃ t, Inv readyT1 ∧ exec .start readyT1 = .next t) ∧
    (∃ t, Inv beforeEvb ∧ exec .evb beforeEvb = .next t) ∧ ∃ t, Inv beforeEvb ∧ exec .rdfc beforeEvb = .next t :=
  ⟨⟨_, inv_wrap, rfl⟩, ⟨_, inv_beforeVisible, rfl⟩, ⟨_, inv_beforeEvb, rfl⟩, ⟨_, inv_readyT1, rfl⟩,
    ⟨_, inv_beforeEvb, rfl⟩, ⟨_, inv_beforeEvb, rfl⟩⟩

/-- Each clause: `PCLK` at the wrap and at data start, `EVA`, `EVB`, `RESET`, `START`, and an operation that leaves the
timer. -/
theorem witness_PendingFlagsFollowTheEvents :
    (∃ t, exec .pclk (running readyT1 2 47 false false) = .next t ∧ t.timer.hcnt = 0#16) ∧
    (∃ t, exec .pclk (running readyT1 2 7 false false) = .next t ∧ t.timer.hcnt = 8#16) ∧
    (∃ t, Inv beforeVisible ∧ exec .eva beforeVisible = .next t) ∧ (∃ t, Inv beforeEvb ∧ exec .evb beforeEvb = .next t) ∧
    (∃ t, Inv beforeEvb ∧ exec .reset beforeEvb = .next t) ∧
    (∃ t, Inv readyT1 ∧ exec .start readyT1 = .next t ∧ t.control.run = true) ∧
    (∃ t, Inv readyT1 ∧ exec .pclk readyT1 = .next t ∧ readyT1.control.run = false) ∧
    ∃ t, Inv beforeEvb ∧ exec .rdfc beforeEvb = .next t ∧ Instr.rdfc.agent = .host :=
  ⟨⟨_, rfl, by decide⟩, ⟨_, rfl, by decide⟩, ⟨_, inv_beforeVisible, rfl⟩, ⟨_, inv_beforeEvb, rfl⟩,
    ⟨_, inv_beforeEvb, rfl⟩, ⟨_, inv_readyT1, rfl, by decide⟩, ⟨_, inv_readyT1, rfl, by decide⟩,
    ⟨_, inv_beforeEvb, rfl, rfl⟩⟩

theorem witness_LineBufferHoldsWhileEmitting :
    ∃ (i : Instr) (s t : State), exec i s = .next t ∧ t.rl ≠ s.rl :=
  ⟨.eva, running readyT1 3 0 true false, _, rfl, by decide⟩

/-- Each clause: `PCLK` running and stopped, `RESET`, `START`, another operation, and a refusal. -/
theorem witness_MissRecordsEveryBrokenDeadline :
    (∃ t, exec .pclk (running readyT1 2 47 true true) = .next t ∧ t.miss = true) ∧
    (∃ t, exec .pclk (running readyT1 2 7 true false) = .next t ∧ t.miss = true) ∧
    (∃ t, exec .pclk readyT1 = .next t ∧ readyT1.control.run = false) ∧
    (∃ t, exec .reset beforeEvb = .next t) ∧ (∃ t, exec .start readyT1 = .next t ∧ t.control.run = true) ∧
    (∃ t, exec .evb beforeEvb = .next t) ∧ ∃ r, exec .eva beforeEvb = .refused r :=
  ⟨⟨_, rfl, by decide⟩, ⟨_, rfl, by decide⟩, ⟨_, rfl, by decide⟩, ⟨_, rfl⟩, ⟨_, rfl, by decide⟩, ⟨_, rfl⟩, ⟨_, rfl⟩⟩

/-- Each agent takes a step in some state. -/
theorem witness_AgentsTouchOnlyTheirState :
    (∃ t, exec .csexit readyT1 = .next t ∧ Instr.csexit.agent = .host) ∧
    (∃ t, exec .pclk readyT1 = .next t ∧ Instr.pclk.agent = .ht) ∧
    (∃ t, exec .eva beforeVisible = .next t ∧ Instr.eva.agent = .seq) ∧
    ∃ t, exec .evb beforeEvb = .next t ∧ Instr.evb.agent = .out :=
  ⟨⟨_, rfl, rfl⟩, ⟨_, rfl, rfl⟩, ⟨_, rfl, rfl⟩, ⟨_, rfl, rfl⟩⟩

theorem witness_CriticalSectionHoldsServicesOff :
    ∃ (ops : List Instr) (s t : State), runOps (.csenter :: ops) s = .next t ∧ .csexit ∉ ops ∧ .reset ∉ ops :=
  ⟨[.pclk], beforeVisible, _, rfl, by decide, by decide⟩

theorem witness_StoppedBlockIsDark :
    ∀ (pre : List Instr) (u : State), pre <+: [.pclk] → runOps (.reset :: pre) beforeEvb = .next u →
      u.control.run = false := by
  intro pre u hp h
  rcases List.prefix_cons_iff.mp hp with rfl | ⟨l, rfl, hl⟩
  · cases h; rfl
  · rw [List.prefix_nil.mp hl] at h; cases h; rfl

/-- `V_TOTAL = 1` is the smallest frame that the hypotheses allow. -/
theorem witness_FrameTakesVTotalServices :
    ∃ (ops : List Instr) (s t : State), s.control.run = true ∧ s.seq.line.toNat < s.timing.vTotal.toNat ∧
      runOps ops s = .next t ∧ .reset ∉ ops ∧ ops.count .eva = s.timing.vTotal.toNat :=
  ⟨[.eva], { running readyT1 0 0 true false with timing := { timingT1 with vTotal := 1#16 } }, _, by decide, by decide,
    rfl, by decide, by decide⟩

theorem witness_SyncAndVisibleLinesOfAFrame :
    ∃ (ops : List Instr) (s t : State), Inv s ∧ s.control.run = true ∧
      s.seq.line.toNat + 1 = s.timing.vTotal.toNat ∧ runOps ops s = .next t ∧ .reset ∉ ops ∧
      ops.count .eva = s.timing.vTotal.toNat :=
  ⟨[.pclk, .eva, .pclk, .eva, .pclk, .eva, .pclk, .eva], tinyRun, _, inv_tinyRun, by decide, by decide, rfl, by decide,
    by decide⟩

theorem witness_LinePeriodIsHTotalClocks :
    ∃ (ops : List Instr) (s t : State), Inv s ∧ s.control.run = true ∧ runOps ops s = .next t ∧ .reset ∉ ops ∧
      ops.count .pclk = s.timing.hTotal.toNat :=
  ⟨[.pclk], tinyRun, _, inv_tinyRun, by decide, rfl, by decide, by decide⟩

theorem witness_PixelStreamIsInOrder :
    ∃ (ops : List Instr) (s t : State), Inv s ∧ runOps ops s = .next t ∧ .reset ∉ ops :=
  ⟨[.evb, .outw, .pclk], beforeEvb, _, inv_beforeEvb, rfl, by decide⟩

theorem witness_LineBufferIsTheLastRender :
    ∃ (ops : List Instr) (s t u : State) (i : Word), Inv s ∧ runOps ops s = .next t ∧ .reset ∉ ops ∧
      (statesAfterEva ops s).getLast? = some u ∧ t.seq.visibleLine = some i :=
  ⟨[.eva, .pclk], beforeVisible, _, _, _, inv_beforeVisible, rfl, by decide, rfl, rfl⟩

theorem witness_ClockOutHoldIsShort :
    ∃ (ops : List Instr) (s t : State), Inv s ∧ s.control.run = true ∧ s.out.emitting = true ∧
      s.shifter.fifo.length = s.config.val.fifoDepth ∧ runOps ops s = .next t ∧ .reset ∉ ops ∧ .outw ∉ ops ∧
      16 ≤ ops.count .pclk :=
  ⟨List.replicate 16 .pclk, emittingAt 1 fullShifter, _, inv_emitting, by decide, by decide, by decide, rfl, by decide,
    by decide, by decide⟩

theorem witness_TraceRunsThroughStep :
    (∃ (ops : List Instr) (s t : State), runOps ops s = .next t) ∧
    ∃ (ops : List Instr) (s t : State), eagerRun ops s = .next t :=
  ⟨⟨[.pclk, .eva], beforeVisible, _, rfl⟩, ⟨[.pclk], beforeEvb, _, rfl⟩⟩

/-- T1 meets the conditions of R314; one pixel clock of it. -/
theorem witness_EagerScheduleMissesNoDeadline :
    ∃ s0 t : State, exec .start readyT1 = .next s0 ∧ readyT1.control.run = false ∧ s0.control.run = true ∧
      1 ≤ readyT1.timing.hDataStart.toNat ∧
      readyT1.timing.hDataStart.toNat + 16 * readyT1.config.val.wpl ≤ readyT1.timing.hTotal.toNat - 1 ∧
      (∀ i ∈ [Instr.csenter, .csexit, .pclk], i.agent = .ht ∨ i.agent = .host) ∧
      neverHeldAtPclk readyT1.control.hold [.csenter, .csexit, .pclk] = true ∧
      eagerRun [.csenter, .csexit, .pclk] s0 = .next t :=
  ⟨_, _, rfl, by decide, by decide, by decide, by decide, by decide, by decide, rfl⟩

theorem witness_PixelsAppearInPlace :
    ∃ s0 t u : State, exec .start readyT1 = .next s0 ∧ readyT1.control.run = false ∧ s0.control.run = true ∧
      1 ≤ readyT1.timing.hDataStart.toNat ∧
      readyT1.timing.hDataStart.toNat + 16 * readyT1.config.val.wpl ≤ readyT1.timing.hTotal.toNat - 1 ∧
      (∀ i ∈ [Instr.pclk], i.agent = .ht ∨ i.agent = .host) ∧
      neverHeldAtPclk readyT1.control.hold [.pclk] = true ∧ eagerRun [.pclk] s0 = .next t ∧ exec .pclk t = .next u :=
  ⟨_, _, _, rfl, by decide, by decide, by decide, by decide, by decide, by decide, rfl, rfl⟩

/-- Both clauses: a valid and an invalid configuration; an element of either store. -/
theorem witness_SetupStartsTheBlock :
    (∃ s0, exec .reset beforeEvb = .next s0) ∧ checkMask beforeEvb.config.val timingT1 = 0#5 ∧
    checkMask beforeEvb.config.val { timingT1 with vScale := 0#16 } ≠ 0#5 ∧ inFb beforeEvb.config.val 1 1 = true ∧
    inCell readyT2.config.val 1 3 = true := ⟨⟨_, rfl⟩, by decide, by decide, by decide, by decide⟩

/-- The row before the last, and the last column. -/
theorem witness_ScrollMovesTheRowsUp :
    (hostStart readyT2).block.config.val.content = .text 2 2 [0x00, 0x00, 0x18, 0x24, 0x3C, 0x42] ∧
    Memory.wf (hostStart readyT2).block.cell = true ∧ 0 + 1 < 2 ∧ 3 < (hostStart readyT2).block.config.val.textCols := by
  decide

theorem witness_ClearZeroesTheStore :
    Memory.wf (hostStart readyT1).block.fb = true ∧ Memory.wf (hostStart readyT1).block.cell = true ∧
    inFb (hostStart readyT1).block.config.val 1 1 = true ∧ inCell (hostStart readyT2).block.config.val 1 3 = true := by
  decide

/-- The last pixel of the buffer, and the first beyond it on each side. -/
theorem witness_PointSetsOnePixel :
    (hostStart readyT1).block.config.val.content = .bitmap 2 ∧ Memory.wf (hostStart readyT1).block.fb = true ∧
    (31 : Int) < 16 * ((hostStart readyT1).block.config.val.wpl : Int) ∧
    ¬(32 : Int) < 16 * ((hostStart readyT1).block.config.val.wpl : Int) ∧ ¬(0 : Int) ≤ -1 ∧ ¬(2 : Int) < (2 : Nat) := by
  decide

theorem witness_DiagonalLineIsSymmetric :
    (hostStart readyT1).block.config.val.content = .bitmap 2 ∧ Memory.wf (hostStart readyT1).block.fb = true ∧
    1 < 16 * (hostStart readyT1).block.config.val.wpl := by decide

theorem witness_StringWrapsAtTheLastColumn :
    ∃ h : HostSide, h.block.config.val.content = .text 2 2 [0x00, 0x00, 0x18, 0x24, 0x3C, 0x42] ∧
      Memory.wf h.block.cell = true ∧ h.block.config.val.textCols = 2 ∧ 2 ≤ 2 ∧
      ∀ ch ∈ [65, 66, 67], ch ≠ 0x0A ∧ ch ≠ 0x0D ∧ ch ≠ 0x09 :=
  ⟨hostStart (State.powerOn cfgTwo), by decide⟩

theorem witness_CursorStaysInTheGrid :
    ∃ h : HostSide, h.curCol < h.block.config.val.textCols ∧ h.curRow < textRowsOf h.block.config.val :=
  ⟨{ hostStart readyT2 with curCol := 3, curRow := 1 }, by decide⟩

end Sys2Proof.Tests
end

section
/-! SUPPORT. The model's own fields (log entries 1, 2, 5): the parameters, the trace still to come and the
number of the draw. Each shared operation keeps all three, and `RESET` alone takes another draw. -/

namespace Sys2Proof.Machine

/-- `t` has the parameters, the trace still to come and the draw number of `s`. -/
structure SameOwnFields (s t : State) : Prop where
  config : t.config = s.config
  trace : t.trace = s.trace
  draw : t.draw = s.draw

namespace SameOwnFields

theorem refl (s : State) : SameOwnFields s s := ⟨rfl, rfl, rfl⟩

theorem trans {s t u : State} (h : SameOwnFields s t) (h' : SameOwnFields t u) : SameOwnFields s u :=
  ⟨h'.config.trans h.config, h'.trace.trans h.trace, h'.draw.trans h.draw⟩

/-- Answering the host (R101) writes the result only. -/
theorem answer {s t : State} (h : SameOwnFields s t) (r : Option HostResult) : SameOwnFields s (answer t r) :=
  ⟨h.config, h.trace, h.draw⟩

end SameOwnFields

theorem shiftTick_sameOwnFields (s : State) : SameOwnFields s (shiftTick s) := by
  rw [shiftTick_eq]; exact ⟨rfl, rfl, rfl⟩

theorem timerTick_sameOwnFields (s : State) : SameOwnFields s (timerTick s) := by
  cases h : s.control.run with
  | false => rw [timerTick_stopped s h]; exact .refl s
  | true => rw [timerTick_eq s h]; exact ⟨rfl, rfl, rfl⟩

theorem serviceA_sameOwnFields (s : State) : SameOwnFields s (serviceA s) := by
  obtain ⟨-, -, visible⟩ | ⟨-, hidden⟩ := serviceA_cases s
  · rw [visible]; exact ⟨rfl, rfl, rfl⟩
  · rw [hidden]; exact ⟨rfl, rfl, rfl⟩

theorem serviceB_sameOwnFields (s : State) : SameOwnFields s (serviceB s) := by
  rw [serviceB_eq]; exact ⟨rfl, rfl, rfl⟩

theorem emitWord_sameOwnFields (s : State) : SameOwnFields s (emitWord s) := by
  rw [emitWord_eq]; exact ⟨rfl, rfl, rfl⟩

theorem configure_sameOwnFields (s : State) (c : FrameTiming) : SameOwnFields s (configure s c) := by
  rw [configure_eq]; exact ⟨rfl, rfl, rfl⟩

/-- `START` with setup open, whether the checks pass or fail (R210, R216, R262). -/
theorem startChecked_sameOwnFields (s : State) (m : BitVec 5) : SameOwnFields s (startChecked s m) := by
  unfold startChecked; split <;> exact ⟨rfl, rfl, rfl⟩

theorem portWriteFb_sameOwnFields (s : State) (x y z : Word) : SameOwnFields s (portWriteFb s x y z) := by
  obtain ⟨-, inRange⟩ | ⟨-, noChange⟩ := portWriteFb_cases s x y z
  · rw [inRange]; exact ⟨rfl, rfl, rfl⟩
  · rw [noChange]; exact .refl s

theorem portWriteCell_sameOwnFields (s : State) (x y z : Word) : SameOwnFields s (portWriteCell s x y z) := by
  obtain ⟨-, inRange⟩ | ⟨-, noChange⟩ := portWriteCell_cases s x y z
  · rw [inRange]; exact ⟨rfl, rfl, rfl⟩
  · rw [noChange]; exact .refl s

/-- `RESET` always completes, and takes the block to its power-on state with another draw (R53). -/
theorem exec_reset_next {s t : State} : exec .reset s = .next t ↔ t = resetBlock s := by
  simp [exec, execReset, eq_comm]

/-- `START` refuses, fails its checks or starts the block (R210); none of these touches an own field of the model. -/
theorem exec_start_sameOwnFields {s t : State} (h : exec .start s = .next t) : SameOwnFields s t := by
  simp only [exec, execStart, Host.Outcome.next.injEq] at h
  subst h
  split
  · exact startChecked_sameOwnFields s _
  · exact (SameOwnFields.refl s).answer _

/-- The frame of every operation but `RESET` on the model's own fields. -/
theorem exec_next_sameOwnFields {i : Instr} {s t : State} (hi : i ≠ .reset) (h : exec i s = .next t) :
    SameOwnFields s t := by
  cases i with
  | reset => exact absurd rfl hi
  | pclk => cases h; exact ((shiftTick_sameOwnFields s).trans (timerTick_sameOwnFields _)).answer _
  | eva => obtain ⟨-, rfl⟩ := exec_eva_next.mp h; exact (serviceA_sameOwnFields s).answer _
  | evb => obtain ⟨-, rfl⟩ := exec_evb_next.mp h; exact (serviceB_sameOwnFields s).answer _
  | outw => obtain ⟨-, rfl⟩ := exec_outw_next.mp h; exact (emitWord_sameOwnFields s).answer _
  | cfgh | cfgv | cfgf => cases h; exact (configure_sameOwnFields s _).answer _
  | start => exact exec_start_sameOwnFields h
  | csenter | csexit => cases h; exact ⟨rfl, rfl, rfl⟩
  | rdfc | fbrd | cellrd => cases h; exact (SameOwnFields.refl s).answer _
  | fbwr x y z => cases h; exact (portWriteFb_sameOwnFields s x y z).answer _
  | cellwr x y z => cases h; exact (portWriteCell_sameOwnFields s x y z).answer _

/-- Settles O34: `RESET` keeps the parameters and the trace, and every other operation keeps the draw number too. -/
theorem parametersNeverChange : Obligations.ParametersNeverChange := by
  intro i s t h
  by_cases hi : i = .reset
  · subst hi
    rw [exec_reset_next.mp h]
    exact ⟨resetBlock_config s, resetBlock_trace s, fun notReset => absurd rfl notReset⟩
  · have kept := exec_next_sameOwnFields hi h
    exact ⟨kept.config, kept.trace, fun _ => kept.draw⟩

end Sys2Proof.Machine
end

section
/-! SUPPORT. What an operation of each agent leaves as it is (R50, R271): one frame for each agent, then the fields that
several agents share. -/

namespace Sys2Proof.Machine

/-- What a pixel clock leaves: all but the timer, the shifter and the ghost bit (R50). -/
structure PixelClockFrame (s t : State) : Prop where
  timing : t.timing = s.timing
  control : t.control = s.control
  seq : t.seq = s.seq
  rl : t.rl = s.rl
  out : t.out = s.out
  fb : t.fb = s.fb
  cell : t.cell = s.cell

/-- What the sequencer leaves: all but its own registers, the line buffer and `PEND_A` (R50). -/
structure SequencerFrame (s t : State) : Prop where
  timing : t.timing = s.timing
  control : t.control = s.control
  hcnt : t.timer.hcnt = s.timer.hcnt
  pendB : t.timer.pendB = s.timer.pendB
  out : t.out = s.out
  shifter : t.shifter = s.shifter
  fb : t.fb = s.fb
  cell : t.cell = s.cell
  miss : t.miss = s.miss

/-- What the clock-out driver leaves: all but its progress, the FIFO and `PEND_B` (R50). -/
structure ClockOutFrame (s t : State) : Prop where
  timing : t.timing = s.timing
  control : t.control = s.control
  seq : t.seq = s.seq
  hcnt : t.timer.hcnt = s.timer.hcnt
  pendA : t.timer.pendA = s.timer.pendA
  rl : t.rl = s.rl
  shReg : t.shifter.shReg = s.shifter.shReg
  shCnt : t.shifter.shCnt = s.shifter.shCnt
  pix : t.shifter.pix = s.shifter.pix
  fb : t.fb = s.fb
  cell : t.cell = s.cell
  miss : t.miss = s.miss

/-- What the host leaves when it starts nothing: the services, the timer, the shifter and `RUN` (R50). -/
structure HostFrame (s t : State) : Prop where
  seq : t.seq = s.seq
  timer : t.timer = s.timer
  rl : t.rl = s.rl
  out : t.out = s.out
  shifter : t.shifter = s.shifter
  miss : t.miss = s.miss
  run : t.control.run = s.control.run

/-! ## The operations, whole -/

/-- A pixel clock does nothing to a stopped block; of a running one it takes the timer and the shifter on, and may set the
ghost bit (R164, R200, R201). -/
theorem exec_pclk_cases {s t : State} (h : exec .pclk s = .next t) :
    (s.control.run = false ∧ t = answer s none) ∨
      (s.control.run = true ∧ ∃ m, t =
        { s with
          timer := { hcnt := BitVec.ofNat 16 (nextHcnt s)
                     pendA := s.timer.pendA || decide (nextHcnt s = 0)
                     pendB := s.timer.pendB || decide (nextHcnt s = s.timing.hDataStart.toNat) }
          shifter := shiftBit (shiftReload s.shifter)
          miss := m
          result := none }) := by
  obtain rfl : answer (timerTick (shiftTick s)) none = t := by simpa [exec, execPclk] using h
  cases hr : s.control.run with
  | false =>
    have idle : shiftTick s = s := by simp [shiftTick_eq, hr]
    rw [idle, timerTick_stopped s hr]
    exact .inl ⟨rfl, rfl⟩
  | true =>
    have shifted : shiftTick s = { s with shifter := shiftBit (shiftReload s.shifter) } := by simp [shiftTick_eq, hr]
    rw [shifted, timerTick_eq]
    · exact .inr ⟨rfl, _, rfl⟩
    · exact hr

/-- `EVA`, when it is enabled: the whole next state but for the line buffer, which is rendered on a visible line and stays
on any other (R120). -/
theorem exec_eva_cases {s t : State} (h : exec .eva s = .next t) :
    evaEnabled s = true ∧ ∃ rl, t =
        { s with
          timer := { s.timer with pendA := false }
          seq := { line := nextLine s, frame := nextFrame s, vsync := nextVsync s (nextLine s)
                   visibleLine := visibleLineOf s.timing (nextLine s).toNat }
          rl := rl
          result := none } ∧
      (rl.length = s.config.val.wpl ∨
        rl = s.rl ∧ visibleLineOf s.timing (nextLine s).toNat = none) := by
  obtain ⟨enabled, rfl⟩ := exec_eva_next.mp h
  refine ⟨enabled, ?_⟩
  obtain ⟨-, -, visible⟩ | ⟨beyond, hidden⟩ := serviceA_cases s
  · exact ⟨_, congrArg (answer · none) visible, .inl (renderLine_length s _)⟩
  · have noLine : visibleLineOf s.timing (nextLine s).toNat = none := if_neg beyond
    exact ⟨s.rl, by rw [hidden, noLine]; rfl, .inr ⟨rfl, noLine⟩⟩

/-- `START` is refused while setup is closed, records the checks that fail, or starts the block (R210, R216, R262). -/
theorem exec_start_cases {s t : State} (h : exec .start s = .next t) :
    (setupOpen s = false ∧ t = answer s (some (.word32 eRefused))) ∨
      (setupOpen s = true ∧ checkMask s.config.val s.timing ≠ 0#5 ∧
        t = answer (raiseCfgError s (checkMask s.config.val s.timing))
              (some (.word32 ((checkMask s.config.val s.timing).setWidth 32)))) ∨
      (setupOpen s = true ∧ checkMask s.config.val s.timing = 0#5 ∧
        t = answer (startState s) (some (.word32 0#32))) := by
  simp only [exec, execStart, Host.Outcome.next.injEq] at h
  subst h
  cases setupOpen s with
  | false => exact .inl ⟨rfl, rfl⟩
  | true =>
    by_cases hm : checkMask s.config.val s.timing = 0#5
    · exact .inr (.inr ⟨rfl, hm, by simp [startChecked, hm]⟩)
    · exact .inr (.inl ⟨rfl, hm, by simp [startChecked, hm]⟩)

/-- A `START` after which a stopped block runs has passed the checks, and gives the start state (R210, R216). -/
theorem exec_start_started {s t : State} (h : exec .start s = .next t) (stopped : s.control.run = false)
    (started : t.control.run = true) :
    s.control.cfgErr = 0#5 ∧ checkMask s.config.val s.timing = 0#5 ∧
      t = answer (startState s) (some (.word32 0#32)) := by
  obtain ⟨-, rfl⟩ | ⟨-, -, rfl⟩ | ⟨hopen, valid, whole⟩ := exec_start_cases h
  · simp [stopped] at started
  · simp [stopped] at started
  · exact ⟨((setupOpen_iff s).mp hopen).2, valid, whole⟩

/-! ## The frames of the agents -/

theorem configure_hostFrame (s : State) (c : FrameTiming) : HostFrame s (configure s c) := by
  rw [configure_eq]; exact ⟨rfl, rfl, rfl, rfl, rfl, rfl, rfl⟩

/-- The bitmap write of the host port writes `FB` only. -/
theorem portWriteFb_eq (s : State) (x y z : Word) : ∃ m, portWriteFb s x y z = { s with fb := m } := by
  obtain ⟨-, inRange⟩ | ⟨-, noChange⟩ := portWriteFb_cases s x y z
  · exact ⟨_, inRange⟩
  · exact ⟨s.fb, noChange⟩

/-- The text write of the host port writes `CELL` only. -/
theorem portWriteCell_eq (s : State) (x y z : Word) : ∃ m, portWriteCell s x y z = { s with cell := m } := by
  obtain ⟨-, inRange⟩ | ⟨-, noChange⟩ := portWriteCell_cases s x y z
  · exact ⟨_, inRange⟩
  · exact ⟨s.cell, noChange⟩

theorem portWriteFb_hostFrame (s : State) (x y z : Word) : HostFrame s (portWriteFb s x y z) := by
  obtain ⟨m, written⟩ := portWriteFb_eq s x y z
  rw [written]; exact ⟨rfl, rfl, rfl, rfl, rfl, rfl, rfl⟩

theorem portWriteCell_hostFrame (s : State) (x y z : Word) : HostFrame s (portWriteCell s x y z) := by
  obtain ⟨m, written⟩ := portWriteCell_eq s x y z
  rw [written]; exact ⟨rfl, rfl, rfl, rfl, rfl, rfl, rfl⟩

theorem HostFrame.refl (s : State) : HostFrame s s := ⟨rfl, rfl, rfl, rfl, rfl, rfl, rfl⟩

theorem HostFrame.answer {s t : State} (h : HostFrame s t) (r : Option HostResult) : HostFrame s (answer t r) :=
  ⟨h.seq, h.timer, h.rl, h.out, h.shifter, h.miss, h.run⟩

/-- A `START` that does not start a stopped block is a host operation like the others. -/
theorem exec_start_hostFrame {s t : State} (h : exec .start s = .next t)
    (notStarted : ¬(s.control.run = false ∧ t.control.run = true)) : HostFrame s t := by
  obtain ⟨-, rfl⟩ | ⟨-, -, rfl⟩ | ⟨hopen, -, rfl⟩ := exec_start_cases h
  · exact (HostFrame.refl s).answer _
  · exact ⟨rfl, rfl, rfl, rfl, rfl, rfl, rfl⟩
  · exact absurd ⟨((setupOpen_iff s).mp hopen).1, rfl⟩ notStarted

theorem exec_pclk_frame {s t : State} (h : exec .pclk s = .next t) : PixelClockFrame s t := by
  obtain ⟨-, rfl⟩ | ⟨-, m, rfl⟩ := exec_pclk_cases h <;> exact ⟨rfl, rfl, rfl, rfl, rfl, rfl, rfl⟩

theorem exec_eva_frame {s t : State} (h : exec .eva s = .next t) : SequencerFrame s t := by
  obtain ⟨-, rl, rfl, -⟩ := exec_eva_cases h
  exact ⟨rfl, rfl, rfl, rfl, rfl, rfl, rfl, rfl, rfl⟩

theorem exec_clockOut_frame {i : Instr} {s t : State} (hi : i.agent = .out) (h : exec i s = .next t) :
    ClockOutFrame s t := by
  cases i with
  | evb =>
    obtain ⟨-, rfl⟩ := exec_evb_next.mp h
    rw [serviceB_eq]; exact ⟨rfl, rfl, rfl, rfl, rfl, rfl, rfl, rfl, rfl, rfl, rfl, rfl⟩
  | outw =>
    obtain ⟨-, rfl⟩ := exec_outw_next.mp h
    rw [emitWord_eq]; exact ⟨rfl, rfl, rfl, rfl, rfl, rfl, rfl, rfl, rfl, rfl, rfl, rfl⟩
  | _ => cases hi

theorem exec_host_frame {i : Instr} {s t : State} (hi : i.agent = .host)
    (notStarted : ¬(i = .start ∧ s.control.run = false ∧ t.control.run = true)) (h : exec i s = .next t) :
    HostFrame s t := by
  cases i with
  | reset | pclk | eva | evb | outw => cases hi
  | cfgh | cfgv | cfgf => cases h; exact (configure_hostFrame s _).answer _
  | start => exact exec_start_hostFrame h fun started => notStarted ⟨rfl, started⟩
  | csenter | csexit => cases h; exact ⟨rfl, rfl, rfl, rfl, rfl, rfl, rfl⟩
  | rdfc | fbrd | cellrd => cases h; exact (HostFrame.refl s).answer _
  | fbwr x y z => cases h; exact (portWriteFb_hostFrame s x y z).answer _
  | cellwr x y z => cases h; exact (portWriteCell_hostFrame s x y z).answer _

/-! ## The fields that several agents share -/

/-- Only `RESET` and the two port writes touch the content store (R50). -/
theorem exec_stores_cases {i : Instr} {s t : State} (hi : i ≠ .reset) (h : exec i s = .next t) :
    (∃ x y z, i = .fbwr x y z ∧ t = answer (portWriteFb s x y z) none) ∨
      (∃ x y z, i = .cellwr x y z ∧ t = answer (portWriteCell s x y z) none) ∨
      (t.fb = s.fb ∧ t.cell = s.cell) := by
  cases i with
  | reset => exact absurd rfl hi
  | fbwr x y z => cases h; exact .inl ⟨x, y, z, rfl, rfl⟩
  | cellwr x y z => cases h; exact .inr (.inl ⟨x, y, z, rfl, rfl⟩)
  | pclk => exact .inr (.inr ⟨(exec_pclk_frame h).fb, (exec_pclk_frame h).cell⟩)
  | eva => exact .inr (.inr ⟨(exec_eva_frame h).fb, (exec_eva_frame h).cell⟩)
  | evb | outw => exact .inr (.inr ⟨(exec_clockOut_frame rfl h).fb, (exec_clockOut_frame rfl h).cell⟩)
  | cfgh | cfgv | cfgf => cases h; rw [configure_eq]; exact .inr (.inr ⟨rfl, rfl⟩)
  | start => obtain ⟨-, rfl⟩ | ⟨-, -, rfl⟩ | ⟨-, -, rfl⟩ := exec_start_cases h <;> exact .inr (.inr ⟨rfl, rfl⟩)
  | csenter | csexit | rdfc | fbrd | cellrd => cases h; exact .inr (.inr ⟨rfl, rfl⟩)

theorem exec_keeps_fb {i : Instr} {s t : State} (hi : i ≠ .reset) (noWrite : ∀ x y z, i ≠ .fbwr x y z)
    (h : exec i s = .next t) : t.fb = s.fb := by
  obtain ⟨x, y, z, write, -⟩ | ⟨x, y, z, -, rfl⟩ | ⟨kept, -⟩ := exec_stores_cases hi h
  · exact absurd write (noWrite x y z)
  · obtain ⟨m, written⟩ := portWriteCell_eq s x y z
    rw [written]; rfl
  · exact kept

theorem exec_keeps_cell {i : Instr} {s t : State} (hi : i ≠ .reset) (noWrite : ∀ x y z, i ≠ .cellwr x y z)
    (h : exec i s = .next t) : t.cell = s.cell := by
  obtain ⟨x, y, z, -, rfl⟩ | ⟨x, y, z, write, -⟩ | ⟨-, kept⟩ := exec_stores_cases hi h
  · obtain ⟨m, written⟩ := portWriteFb_eq s x y z
    rw [written]; rfl
  · exact absurd write (noWrite x y z)
  · exact kept

/-- The configuration registers stay, or setup is open and the operation writes them (R22, R207). -/
theorem exec_timing_cases {i : Instr} {s t : State} (hi : i ≠ .reset) (h : exec i s = .next t) :
    t.timing = s.timing ∨
      (setupOpen s = true ∧ ∃ x y z, i = .cfgh x y z ∨ i = .cfgv x y z ∨ i = .cfgf x y z) := by
  cases i with
  | reset => exact absurd rfl hi
  | cfgh x y z | cfgv x y z | cfgf x y z =>
    cases h
    cases hopen : setupOpen s with
    | false => left; simp [configure_eq, hopen]
    | true => exact .inr ⟨rfl, x, y, z, by simp⟩
  | pclk => exact .inl (exec_pclk_frame h).timing
  | eva => exact .inl (exec_eva_frame h).timing
  | evb | outw => exact .inl (exec_clockOut_frame rfl h).timing
  | start => obtain ⟨-, rfl⟩ | ⟨-, -, rfl⟩ | ⟨-, -, rfl⟩ := exec_start_cases h <;> exact .inl rfl
  | csenter | csexit | rdfc | fbrd | cellrd => cases h; exact .inl rfl
  | fbwr x y z => cases h; obtain ⟨m, written⟩ := portWriteFb_eq s x y z; rw [written]; exact .inl rfl
  | cellwr x y z => cases h; obtain ⟨m, written⟩ := portWriteCell_eq s x y z; rw [written]; exact .inl rfl

/-- `RUN`, `HOLD` and `CFGERR` are left by every operation not named for one of them (R37, R38, R39). -/
theorem exec_keeps_control {i : Instr} {s t : State} (notReset : i ≠ .reset) (notStart : i ≠ .start)
    (notEnter : i ≠ .csenter) (notExit : i ≠ .csexit) (h : exec i s = .next t) : t.control = s.control := by
  cases i with
  | reset | start | csenter | csexit => contradiction
  | pclk => exact (exec_pclk_frame h).control
  | eva => exact (exec_eva_frame h).control
  | evb | outw => exact (exec_clockOut_frame rfl h).control
  | cfgh | cfgv | cfgf => cases h; rw [configure_eq]; rfl
  | rdfc | fbrd | cellrd => cases h; rfl
  | fbwr x y z => cases h; obtain ⟨m, written⟩ := portWriteFb_eq s x y z; rw [written]; rfl
  | cellwr x y z => cases h; obtain ⟨m, written⟩ := portWriteCell_eq s x y z; rw [written]; rfl

/-- `LINE`, `FRAME`, `visible_line` and `VSYNC` are the sequencer's: only `EVA`, `START` and `RESET` write them (R50). -/
theorem exec_keeps_seq {i : Instr} {s t : State} (notEva : i ≠ .eva) (notReset : i ≠ .reset)
    (notStart : i ≠ .start) (h : exec i s = .next t) : t.seq = s.seq := by
  cases i with
  | reset | start | eva => contradiction
  | pclk => exact (exec_pclk_frame h).seq
  | evb | outw => exact (exec_clockOut_frame rfl h).seq
  | _ => exact (exec_host_frame rfl (by simp) h).seq

/-- Settles O35, from the case of a write that changes a register. -/
theorem configurationIsFrozen : Obligations.ConfigurationIsFrozen := by
  intro i s t h changed
  by_cases hi : i = .reset
  · exact .inl hi
  · obtain kept | ⟨hopen, write⟩ := exec_timing_cases hi h
    · exact absurd kept changed
    · obtain ⟨stopped, noError⟩ := (setupOpen_iff s).mp hopen
      exact .inr ⟨stopped, noError, write⟩

/-- Settles O36: the operations named for the three fields one by one, and `exec_keeps_control` for all others. -/
theorem runAndErrorAreSticky : Obligations.RunAndErrorAreSticky := by
  intro i s t h
  cases i with
  | reset => rw [exec_reset_next.mp h]; simp [State.powerOn]
  | start =>
    obtain ⟨-, rfl⟩ | ⟨hopen, -, rfl⟩ | ⟨-, -, rfl⟩ := exec_start_cases h
    · simp
    · simp [((setupOpen_iff s).mp hopen).2]
    · simp
  | csenter | csexit => cases h; simp +contextual
  | _ =>
    have kept := exec_keeps_control (by simp) (by simp) (by simp) (by simp) h
    rw [kept]; simp +contextual

/-- Settles O41: the frame of each agent. -/
theorem agentsTouchOnlyTheirState : Obligations.AgentsTouchOnlyTheirState := by
  intro i s t h
  refine ⟨fun host notStarted => ?_, fun host noWrite => ?_, fun host noWrite => ?_, fun timer => ?_, fun seq => ?_,
    fun out => ?_⟩
  · obtain ⟨hseq, htimer, hrl, hout, hshifter, hmiss, hrun⟩ := exec_host_frame host notStarted h
    exact ⟨hseq, htimer, hrl, hout, hshifter, hmiss, hrun⟩
  · exact exec_keeps_fb (by rintro rfl; cases host) noWrite h
  · exact exec_keeps_cell (by rintro rfl; cases host) noWrite h
  · obtain rfl : i = .pclk := by cases i <;> simp [Instr.agent] at timer ⊢
    obtain ⟨htiming, hcontrol, hseq, hrl, hout, hfb, hcell⟩ := exec_pclk_frame h
    exact ⟨htiming, hcontrol, hseq, hrl, hout, hfb, hcell⟩
  · obtain rfl : i = .eva := by cases i <;> simp [Instr.agent] at seq ⊢
    obtain ⟨htiming, hcontrol, hhcnt, hpendB, hout, hshifter, hfb, hcell, hmiss⟩ := exec_eva_frame h
    exact ⟨htiming, hcontrol, hhcnt, hpendB, hout, hshifter, hfb, hcell, hmiss⟩
  · obtain ⟨htiming, hcontrol, hseq, hhcnt, hpendA, hrl, hshReg, hshCnt, hpix, hfb, hcell, hmiss⟩ :=
      exec_clockOut_frame out h
    exact ⟨htiming, hcontrol, hseq, hhcnt, hpendA, hrl, hshReg, hshCnt, hpix, hfb, hcell, hmiss⟩

end Sys2Proof.Machine
end

section
/-! SUPPORT. The invariant of the block (R26, R29, R33, R34, R37, R41, R169): that it holds at power-on, that each operation
keeps it, and what it says of a run from power-on; the frame counter and the pending flags under it. -/

namespace Sys2Proof.Machine

/-! ## Power-on -/

/-- A power-on state has the invariant, whatever the draw number and the trace still to come are. -/
theorem inv_powerOn (c : Config) (d : Nat) (ws : List OpWord) :
    Inv { State.powerOn c with draw := d, trace := ws } where
  stopped _ := ⟨rfl, rfl, rfl, rfl, rfl, rfl⟩
  running h := nomatch h
  pipe := ⟨.inl rfl, nofun, nofun, nofun, fun _ => rfl, Nat.zero_le _, Nat.zero_le _⟩
  store := ⟨rfl, rfl, rfl, rfl⟩

/-- Settles O32. -/
theorem powerOnMeetsTheInvariant : Obligations.PowerOnMeetsTheInvariant :=
  ⟨fun c => inv_powerOn c 0 [], inv_powerOn _ 0 []⟩

/-- Settles O11: the reset table, read off the power-on state. -/
theorem powerOnValues : Obligations.PowerOnValues :=
  ⟨fun _ => ⟨rfl, rfl, rfl, rfl, rfl, rfl, rfl, rfl⟩, _, rfl⟩

/-! ## The arithmetic of a valid configuration -/

/-- What the checks of `START` say of the vertical counts: they are not zero and add up to `V_TOTAL` (R215). -/
theorem vertical_of_valid {p : Params} {t : FrameTiming} (valid : checkMask p t = 0#5) :
    0 < t.vSync.toNat ∧ 0 < t.vFront.toNat ∧ t.visibleTo + t.vFront.toNat = t.vTotal.toNat := by
  obtain ⟨hsum, hzero, -⟩ := (checkMask_eq_zero p t).mp valid
  simp only [FrameTiming.badSum, decide_eq_false_iff_not, not_not] at hsum
  simp only [FrameTiming.zeroCount, Bool.or_eq_false_iff, beq_eq_false_iff_ne, ne_eq, ← BitVec.toNat_inj,
    BitVec.toNat_ofNat] at hzero
  simp only [FrameTiming.visibleTo, FrameTiming.visibleFrom]
  omega

/-- A valid line has at least one pixel clock, because the offsets are below `H_TOTAL` (R215). -/
theorem hTotal_pos_of_valid {p : Params} {t : FrameTiming} (valid : checkMask p t = 0#5) : 0 < t.hTotal.toNat := by
  obtain ⟨-, -, hoffset, -⟩ := (checkMask_eq_zero p t).mp valid
  simp only [FrameTiming.badOffset, Bool.or_eq_false_iff, decide_eq_false_iff_not] at hoffset
  omega

/-- `LINE` does not run out of its 16 bits below `V_TOTAL` (R29). -/
theorem nextLine_toNat {s : State} (below : s.seq.line.toNat < s.timing.vTotal.toNat) :
    (nextLine s).toNat = if s.seq.line.toNat + 1 = s.timing.vTotal.toNat then 0 else s.seq.line.toNat + 1 := by
  unfold nextLine
  split
  · rfl
  · exact Nat.mod_eq_of_lt (by omega)

/-- `HCNT` stays below `H_TOTAL` (R34). -/
theorem nextHcnt_lt {s : State} (below : s.timer.hcnt.toNat < s.timing.hTotal.toNat) :
    nextHcnt s < s.timing.hTotal.toNat := by
  unfold nextHcnt; split <;> omega

/-- `HCNT` does not run out of its 16 bits below `H_TOTAL` (R34). -/
theorem nextHcnt_toNat {s : State} (below : s.timer.hcnt.toNat < s.timing.hTotal.toNat) :
    (BitVec.ofNat 16 (nextHcnt s)).toNat = nextHcnt s :=
  Nat.mod_eq_of_lt ((nextHcnt_lt below).trans s.timing.hTotal.isLt)

/-- `VSYNC`, driven on the two edges only, is the sync band's level on every line (R33 (c)). -/
theorem nextVsync_eq {s : State} (raster : RasterInv s) :
    nextVsync s (nextLine s) = decide ((nextLine s).toNat < s.timing.vSync.toNat) := by
  obtain ⟨vSync_pos, -, -⟩ := vertical_of_valid raster.timingValid
  have next : (nextLine s).toNat = 0 ∨ (nextLine s).toNat = s.seq.line.toNat + 1 := by
    rw [nextLine_toNat raster.lineBelowTotal]; split <;> simp
  simp only [nextVsync, raster.vsyncRight, ← BitVec.toNat_inj, BitVec.toNat_ofNat]
  split_ifs <;> simp <;> omega

/-- The line the block starts at lies in the front porch, so nothing is visible in it (R216). -/
theorem visibleLineOf_frontPorch {p : Params} {t : FrameTiming} (valid : checkMask p t = 0#5) :
    visibleLineOf t (t.vTotal.toNat - 1) = none := by
  obtain ⟨-, vFront_pos, total⟩ := vertical_of_valid valid
  exact if_neg (by omega)

/-- After a pixel clock no word is whole in the shifter, and the FIFO is no longer than before (R164, R169). -/
theorem shiftBit_shiftReload_bounds {sh : Shifter} (below : sh.shCnt.val ≤ 15) :
    (shiftBit (shiftReload sh)).fifo.length ≤ sh.fifo.length ∧ (shiftBit (shiftReload sh)).shCnt.val ≤ 15 := by
  obtain ⟨w, q, -, hfifo, reload⟩ | ⟨-, -, reload⟩ | ⟨-, reload⟩ := shiftReload_cases sh
  · rw [reload, hfifo]; simp [shiftBit]
  all_goals
    rw [reload]
    obtain ⟨_, shift⟩ | ⟨_, shift⟩ := shiftBit_cases sh <;> rw [shift] <;> simp <;> omega

/-! ## What a frame keeps of the invariant -/

/-- A stopped block stays idle under a host operation. -/
theorem Idle.of_hostFrame {s t : State} (idle : Idle s) (kept : HostFrame s t) : Idle t where
  seqZero := kept.seq.trans idle.seqZero
  timerZero := kept.timer.trans idle.timerZero
  outZero := kept.out.trans idle.outZero
  shifterZero := kept.shifter.trans idle.shifterZero
  rlUnwritten := kept.rl.trans idle.rlUnwritten
  missZero := kept.miss.trans idle.missZero

/-- The raster invariants speak of the configuration, `CFGERR`, the sequencer and `HCNT` only. -/
theorem RasterInv.congr {s t : State} (raster : RasterInv s) (config : t.config = s.config)
    (timing : t.timing = s.timing) (cfgErr : t.control.cfgErr = s.control.cfgErr) (seq : t.seq = s.seq)
    (hcnt : t.timer.hcnt = s.timer.hcnt) : RasterInv t where
  timingValid := by rw [config, timing]; exact raster.timingValid
  noError := cfgErr.trans raster.noError
  lineBelowTotal := by rw [seq, timing]; exact raster.lineBelowTotal
  visibleLineRight := by rw [seq, timing]; exact raster.visibleLineRight
  vsyncRight := by rw [seq, timing]; exact raster.vsyncRight
  hcntBelowTotal := by rw [hcnt, timing]; exact raster.hcntBelowTotal

/-- A host operation leaves line buffer, clock-out and shifter. -/
theorem PipeInv.of_hostFrame {s t : State} (pipe : PipeInv s) (kept : HostFrame s t) (config : t.config = s.config) :
    PipeInv t where
  rlWhole := by rw [kept.rl, config]; exact pipe.rlWhole
  visibleRendered := by rw [kept.seq, kept.rl, config]; exact pipe.visibleRendered
  emittingVisible := by rw [kept.out, kept.seq]; exact pipe.emittingVisible
  outIdxBelow := by rw [kept.out, config]; exact pipe.outIdxBelow
  outIdxIdle := by rw [kept.out]; exact pipe.outIdxIdle
  fifoBounded := by rw [kept.shifter, config]; exact pipe.fifoBounded
  shCntBelow := by rw [kept.shifter]; exact pipe.shCntBelow

/-- The invariant of a state in which the block runs. -/
theorem Inv.of_running {s : State} (run : s.control.run = true) (raster : RasterInv s) (pipe : PipeInv s)
    (store : StoreInv s) : Inv s :=
  ⟨fun stopped => by simp [run] at stopped, fun _ => raster, pipe, store⟩

/-- The invariant says nothing of the trace still to come. -/
theorem Inv.withTrace {s : State} (inv : Inv s) (ws : List OpWord) : Inv { s with trace := ws } where
  stopped stop := { inv.stopped stop with }
  running run := { inv.running run with }
  pipe := { inv.pipe with }
  store := { inv.store with }

/-! ## The operations, one by one -/

/-- The stores keep their canonical form and their range under every operation (R60, R73, R184). -/
theorem exec_keeps_storeInv {i : Instr} {s t : State} (hi : i ≠ .reset) (store : StoreInv s)
    (h : exec i s = .next t) : StoreInv t := by
  obtain ⟨x, y, z, -, rfl⟩ | ⟨x, y, z, -, rfl⟩ | ⟨fb, cell⟩ := exec_stores_cases hi h
  · obtain ⟨inRange, write⟩ | ⟨-, noChange⟩ := portWriteFb_cases s x y z
    · rw [write]; exact { store.writeFb x.isLt inRange with }
    · rw [noChange]; exact { store with }
  · obtain ⟨inRange, write⟩ | ⟨-, noChange⟩ := portWriteCell_cases s x y z
    · rw [write]; exact { store.writeCell x.isLt inRange with }
    · rw [noChange]; exact { store with }
  · obtain ⟨fbWf, cellWf, fbKeys, cellKeys⟩ := store
    rw [← fb] at fbWf fbKeys
    rw [← cell] at cellWf cellKeys
    rw [← (exec_next_sameOwnFields hi h).config] at fbKeys cellKeys
    exact ⟨fbWf, cellWf, fbKeys, cellKeys⟩

theorem exec_pclk_keeps_inv {s t : State} (inv : Inv s) (h : exec .pclk s = .next t) : Inv t := by
  have store := exec_keeps_storeInv (by simp) inv.store h
  obtain ⟨stopped, rfl⟩ | ⟨run, m, rfl⟩ := exec_pclk_cases h
  · exact ⟨fun _ => { inv.stopped stopped with }, fun run => by simp [stopped] at run, { inv.pipe with }, store⟩
  · have raster := inv.running run
    obtain ⟨fifo, shCnt⟩ := shiftBit_shiftReload_bounds inv.pipe.shCntBelow
    have hcnt : (BitVec.ofNat 16 (nextHcnt s)).toNat < s.timing.hTotal.toNat :=
      (nextHcnt_toNat raster.hcntBelowTotal).trans_lt (nextHcnt_lt raster.hcntBelowTotal)
    exact .of_running run { raster with hcntBelowTotal := hcnt }
      { inv.pipe with fifoBounded := fifo.trans inv.pipe.fifoBounded, shCntBelow := shCnt } store

theorem exec_eva_keeps_inv {s t : State} (inv : Inv s) (h : exec .eva s = .next t) : Inv t := by
  have store := exec_keeps_storeInv (by simp) inv.store h
  obtain ⟨enabled, rl, rfl, rendered⟩ := exec_eva_cases h
  obtain ⟨run, -, -, notEmitting⟩ := (evaEnabled_iff s).mp enabled
  have raster := inv.running run
  have below : (nextLine s).toNat < s.timing.vTotal.toNat := by
    have := raster.lineBelowTotal
    rw [nextLine_toNat raster.lineBelowTotal]; split <;> omega
  have whole : rl = [] ∨ rl.length = s.config.val.wpl := by
    obtain whole | ⟨rfl, -⟩ := rendered
    · exact .inr whole
    · exact inv.pipe.rlWhole
  have visible : (visibleLineOf s.timing (nextLine s).toNat).isSome → rl.length = s.config.val.wpl := by
    obtain whole | ⟨-, hidden⟩ := rendered
    · exact fun _ => whole
    · simp [hidden]
  exact .of_running run
    { raster with lineBelowTotal := below, visibleLineRight := rfl, vsyncRight := nextVsync_eq raster }
    { inv.pipe with
      rlWhole := whole
      visibleRendered := visible
      emittingVisible := fun emitting => by simp [notEmitting] at emitting } store

theorem exec_evb_keeps_inv {s t : State} (inv : Inv s) (h : exec .evb s = .next t) : Inv t := by
  have store := exec_keeps_storeInv (by simp) inv.store h
  obtain ⟨enabled, rfl⟩ := exec_evb_next.mp h
  obtain ⟨run, -⟩ := (evbEnabled_iff s).mp enabled
  rw [serviceB_eq] at store ⊢
  refine .of_running run { inv.running run with } ?_ store
  by_cases visible : s.seq.visibleLine.isSome = true
  · simp only [visible, if_true]
    exact { inv.pipe with
      emittingVisible := fun _ => visible
      outIdxBelow := fun _ => (wpl_bounds s.config).1
      outIdxIdle := nofun }
  · simp only [visible]
    exact { inv.pipe with }

theorem exec_outw_keeps_inv {s t : State} (inv : Inv s) (h : exec .outw s = .next t) : Inv t := by
  have store := exec_keeps_storeInv (by simp) inv.store h
  obtain ⟨enabled, rfl⟩ := exec_outw_next.mp h
  obtain ⟨run, emitting, room⟩ := (outwEnabled_iff s).mp enabled
  rw [emitWord_eq] at store ⊢
  have fifo : (fifoPush s.shifter (readRl s s.out.outIdx.toNat)).fifo.length ≤ s.config.val.fifoDepth := by
    simpa [fifoPush] using room
  refine .of_running run { inv.running run with } ?_ store
  by_cases last : s.out.outIdx.toNat + 1 = s.config.val.wpl
  · simp only [last, if_true]
    exact { inv.pipe with
      emittingVisible := nofun
      outIdxBelow := nofun
      outIdxIdle := fun _ => rfl
      fifoBounded := fifo }
  · simp only [last, if_false]
    have idx := inv.pipe.outIdxBelow emitting
    have next : (BitVec.ofNat 16 (s.out.outIdx.toNat + 1)).toNat < s.config.val.wpl :=
      (Nat.mod_le _ _).trans_lt (by omega)
    exact { inv.pipe with
      outIdxBelow := fun _ => next
      outIdxIdle := fun idle => by simp [emitting] at idle
      fifoBounded := fifo }

/-- The start state is the last front-porch line of a frame, with every service idle (R216). -/
theorem exec_start_started_inv {s t : State} (inv : Inv s) (h : exec .start s = .next t)
    (stopped : s.control.run = false) (started : t.control.run = true) : Inv t := by
  have store := exec_keeps_storeInv (by simp) inv.store h
  obtain ⟨noError, valid, rfl⟩ := exec_start_started h stopped started
  obtain ⟨vSync_pos, vFront_pos, total⟩ := vertical_of_valid valid
  have line : (BitVec.ofNat 16 (s.timing.vTotal.toNat - 1)).toNat = s.timing.vTotal.toNat - 1 :=
    Nat.mod_eq_of_lt (by omega)
  have raster : RasterInv (startState s) :=
    { timingValid := valid
      noError := noError
      lineBelowTotal := by simp only [startState_seq, startState_timing, line]; omega
      visibleLineRight := by
        simp only [startState_seq, startState_timing, line]; exact (visibleLineOf_frontPorch valid).symm
      vsyncRight := by
        simp only [startState_seq, startState_timing, line, FrameTiming.visibleTo, FrameTiming.visibleFrom] at total ⊢
        simp; omega
      hcntBelowTotal := hTotal_pos_of_valid valid }
  have pipe : PipeInv (startState s) :=
    { rlWhole := inv.pipe.rlWhole
      visibleRendered := nofun
      emittingVisible := nofun
      outIdxBelow := nofun
      outIdxIdle := fun _ => rfl
      fifoBounded := Nat.zero_le _
      shCntBelow := Nat.zero_le _ }
  exact .of_running rfl { raster with } { pipe with } store

/-- In a running block the host writes neither the configuration registers nor `CFGERR` (R207, R210). -/
theorem exec_host_running {i : Instr} {s t : State} (hi : i.agent = .host) (run : s.control.run = true)
    (h : exec i s = .next t) : t.timing = s.timing ∧ t.control.cfgErr = s.control.cfgErr := by
  have closed : setupOpen s = false := by simp [setupOpen, run]
  refine ⟨(exec_timing_cases (by rintro rfl; cases hi) h).resolve_right (by simp [closed]), ?_⟩
  cases i with
  | start =>
    obtain ⟨-, rfl⟩ | ⟨hopen, -⟩ | ⟨hopen, -⟩ := exec_start_cases h
    · rfl
    all_goals simp [closed] at hopen
  | csenter | csexit => cases h; rfl
  | reset => cases hi
  | _ => rw [exec_keeps_control (by simp) (by simp) (by simp) (by simp) h]

/-- A host operation that starts nothing. -/
theorem exec_host_keeps_inv {i : Instr} {s t : State} (hi : i.agent = .host)
    (notStarted : ¬(i = .start ∧ s.control.run = false ∧ t.control.run = true)) (inv : Inv s)
    (h : exec i s = .next t) : Inv t := by
  have notReset : i ≠ .reset := by rintro rfl; cases hi
  have kept := exec_host_frame hi notStarted h
  have config := (exec_next_sameOwnFields notReset h).config
  refine ⟨fun stopped => (inv.stopped (kept.run ▸ stopped)).of_hostFrame kept, fun run => ?_,
    inv.pipe.of_hostFrame kept config, exec_keeps_storeInv notReset inv.store h⟩
  have ran : s.control.run = true := kept.run ▸ run
  obtain ⟨timing, cfgErr⟩ := exec_host_running hi ran h
  exact (inv.running ran).congr config timing cfgErr kept.seq (congrArg HTimer.hcnt kept.timer)

/-- Every operation keeps the invariant of the block. -/
theorem exec_keeps_inv {i : Instr} {s t : State} (inv : Inv s) (h : exec i s = .next t) : Inv t := by
  cases i with
  | reset => rw [exec_reset_next.mp h]; exact inv_powerOn s.config _ _
  | pclk => exact exec_pclk_keeps_inv inv h
  | eva => exact exec_eva_keeps_inv inv h
  | evb => exact exec_evb_keeps_inv inv h
  | outw => exact exec_outw_keeps_inv inv h
  | start =>
    by_cases started : s.control.run = false ∧ t.control.run = true
    · exact exec_start_started_inv inv h started.1 started.2
    · exact exec_host_keeps_inv rfl (fun starts => started starts.2) inv h
  | _ => exact exec_host_keeps_inv rfl (by simp) inv h

/-- Settles O31: a step is an operation on the state with its word taken from the trace. -/
theorem stepKeepsTheInvariant : Obligations.StepKeepsTheInvariant := by
  intro s t inv h
  obtain ⟨w, ws, i, -, -, hexec⟩ := step_next.mp h
  exact exec_keeps_inv (inv.withTrace ws) hexec

/-! ## Runs from power-on -/

/-- A run of `k + 1` steps is a step and a run of `k`. -/
theorem run_succ_next {k : Nat} {s t : State} :
    Host.Core.run Sys2Proof.core (k + 1) s = .next t ↔
      ∃ u, step s = .next u ∧ Host.Core.run Sys2Proof.core k u = .next t := by
  have coreStep : Sys2Proof.core.step s = step s := rfl
  simp only [Host.Core.run, coreStep]
  cases step s <;> simp

/-- Any number of steps keeps the invariant. -/
theorem run_keeps_inv {k : Nat} {s t : State} (inv : Inv s) (h : Host.Core.run Sys2Proof.core k s = .next t) :
    Inv t := by
  induction k generalizing s with
  | zero => cases h; exact inv
  | succ k ih =>
    obtain ⟨u, hstep, rest⟩ := run_succ_next.mp h
    exact ih (stepKeepsTheInvariant s u inv hstep) rest

/-- The visible band is the one whose lines have a `visible_line` (R33 (b), R121). -/
theorem visibleLineOf_isSome (t : FrameTiming) (n : Nat) :
    (visibleLineOf t n).isSome = true ↔ t.band n = .visible := by
  unfold visibleLineOf FrameTiming.band
  have : t.vSync.toNat ≤ t.visibleFrom := Nat.le_add_right _ _
  split_ifs <;> simp <;> omega

/-- The index of a visible line counts from the first line of the band (R33 (b)). -/
theorem toNat_of_visibleLineOf {t : FrameTiming} {n : Nat} {i : Word} (below : n < 65536)
    (visible : visibleLineOf t n = some i) : i.toNat = n - t.vSync.toNat - t.vBack.toNat := by
  simp only [visibleLineOf, Option.ite_none_right_eq_some, Option.some.injEq] at visible
  obtain ⟨-, rfl⟩ := visible
  rw [BitVec.toNat_ofNat, Nat.mod_eq_of_lt (by omega), FrameTiming.visibleFrom, Nat.sub_sub]

/-- Settles O33: the invariant holds at power-on and is kept by every step, so it holds of the state reached. -/
theorem runsKeepTheRasterInvariants : Obligations.RunsKeepTheRasterInvariants := by
  intro c ws k t h run
  have raster := (run_keeps_inv (inv_powerOn c 0 ws) h).running run
  refine ⟨raster.lineBelowTotal, ?_, fun i visible => ?_, ?_⟩
  · rw [raster.visibleLineRight]; exact visibleLineOf_isSome _ _
  · exact toNat_of_visibleLineOf t.seq.line.isLt (raster.visibleLineRight ▸ visible)
  · rw [raster.vsyncRight, decide_eq_true_iff]

/-! ## The frame counter and the pending flags -/

/-- `LINE` becomes 0 exactly when it wraps (R29). -/
theorem nextLine_eq_zero_iff {s : State} (below : s.seq.line.toNat < s.timing.vTotal.toNat) :
    nextLine s = 0#16 ↔ s.seq.line.toNat + 1 = s.timing.vTotal.toNat := by
  rw [← BitVec.toNat_inj, nextLine_toNat below]
  split_ifs <;> simp_all

/-- Settles O37: `EVA` by the arithmetic of the wrap, `START` and `RESET` by what they write, the rest by their frames. -/
theorem frameCountsLineWraps : Obligations.FrameCountsLineWraps := by
  intro i s t inv h
  refine ⟨?_, ?_, ?_, fun notEva notReset notStart => ?_, ?_⟩
  · rintro rfl
    obtain ⟨enabled, rl, rfl, -⟩ := exec_eva_cases h
    have raster := inv.running ((evaEnabled_iff s).mp enabled).1
    have wraps := nextLine_eq_zero_iff raster.lineBelowTotal
    by_cases wrap : s.seq.line.toNat + 1 = s.timing.vTotal.toNat
    · exact .inl ⟨wraps.mpr wrap, if_pos wrap⟩
    · exact .inr ⟨mt wraps.mp wrap, if_neg wrap⟩
  · rintro rfl
    rw [exec_reset_next.mp h]; rfl
  · rintro rfl
    split_ifs with started
    · obtain ⟨-, -, rfl⟩ := exec_start_started h started.1 started.2
      rfl
    · rw [(exec_start_hostFrame h started).seq]
  · rw [exec_keeps_seq notEva notReset notStart h]
  · rintro rfl
    cases h; rfl

/-- Settles O38, operation by operation; the bounds of the invariant make the two matches exact in 16 bits. -/
theorem pendingFlagsFollowTheEvents : Obligations.PendingFlagsFollowTheEvents := by
  intro i s t inv h
  refine ⟨?_, ?_, ?_, ?_, ?_, ?_⟩
  · rintro rfl run
    obtain ⟨stopped, -⟩ | ⟨-, m, rfl⟩ := exec_pclk_cases h
    · simp [run] at stopped
    · simp [← BitVec.toNat_inj, nextHcnt_toNat (inv.running run).hcntBelowTotal, -BitVec.toNat_ofNat]
  · rintro rfl
    obtain ⟨-, rl, rfl, -⟩ := exec_eva_cases h
    exact ⟨rfl, rfl⟩
  · rintro rfl
    obtain ⟨-, rfl⟩ := exec_evb_next.mp h
    rw [serviceB_eq]; exact ⟨rfl, rfl⟩
  · rintro rfl
    rw [exec_reset_next.mp h]; exact ⟨rfl, rfl⟩
  · rintro rfl stopped started
    obtain ⟨-, -, rfl⟩ := exec_start_started h stopped started
    exact ⟨rfl, rfl⟩
  · rintro (⟨rfl, stopped⟩ | ⟨rfl, same⟩ | rfl | ⟨host, notStart⟩)
    · obtain ⟨-, rfl⟩ | ⟨run, -⟩ := exec_pclk_cases h
      · rfl
      · simp [stopped] at run
    · exact (exec_start_hostFrame h (by simp [same])).timer
    · obtain ⟨-, rfl⟩ := exec_outw_next.mp h
      rw [emitWord_eq]; rfl
    · exact (exec_host_frame host (fun starts => notStart starts.1) h).timer

end Sys2Proof.Machine
end

section
/-! SUPPORT. The host's cursor (R54): what the issued operations leave of it, and that every text routine keeps it in the
grid. -/

namespace Sys2Proof.Machine

/-- The block has the parameters `p`, and the cursor is in their text grid (R54). -/
structure CursorInGrid (p : Params) (h : HostSide) : Prop where
  params : h.block.config.val = p
  col : h.curCol < p.textCols
  row : h.curRow < textRowsOf p

/-- No operation of the host changes the parameters of the block (R12). -/
@[simp] theorem issue_config (h : HostSide) (i : Instr) : (issue h i).block.config = h.block.config := by
  unfold issue
  split
  · next t completed => exact (parametersNeverChange i h.block t completed).1
  all_goals rfl

namespace CursorInGrid

variable {p : Params} {h : HostSide}

/-- Issuing an operation moves no cursor. -/
theorem issue (inGrid : CursorInGrid p h) (i : Instr) : CursorInGrid p (issue h i) where
  params := by rw [issue_config]; exact inGrid.params
  col := by rw [issue_curCol]; exact inGrid.col
  row := by rw [issue_curRow]; exact inGrid.row

/-- The cursor stays in the grid over a list when it does over each element. -/
theorem foldl {β : Type} {f : HostSide → β → HostSide}
    (each : ∀ (g : HostSide) (b : β), CursorInGrid p g → CursorInGrid p (f g b)) (bs : List β)
    (inGrid : CursorInGrid p h) : CursorInGrid p (bs.foldl f h) := by
  induction bs generalizing h with
  | nil => exact inGrid
  | cons b bs ih => exact ih (each h b inGrid)

theorem withCs {body : HostSide → HostSide} (inside : ∀ g, CursorInGrid p g → CursorInGrid p (body g))
    (inGrid : CursorInGrid p h) : CursorInGrid p (withCs body h) :=
  (inside _ (inGrid.issue .csenter)).issue .csexit

theorem copyCellUp (inGrid : CursorInGrid p h) (r c : Nat) : CursorInGrid p (copyCellUp r h c) := by
  unfold Machine.copyCellUp
  exact (inGrid.issue _).issue _

theorem copyRowUp (inGrid : CursorInGrid p h) (cols r : Nat) : CursorInGrid p (copyRowUp cols h r) :=
  inGrid.foldl (fun _ c copied => copied.copyCellUp r c) _

theorem blankRow (inGrid : CursorInGrid p h) (cols r : Nat) :
    CursorInGrid p ((List.range cols).foldl (blankCell r) h) :=
  inGrid.foldl (fun _ _ blanked => blanked.issue _) _

theorem zeroRow (inGrid : CursorInGrid p h) (words r : Nat) :
    CursorInGrid p ((List.range words).foldl (zeroWord r) h) :=
  inGrid.foldl (fun _ _ zeroed => zeroed.issue _) _

theorem scroll (inGrid : CursorInGrid p h) : CursorInGrid p (scroll h) := by
  unfold Machine.scroll
  exact inGrid.withCs fun _ inside => (inside.foldl (fun _ r copied => copied.copyRowUp _ r) _).blankRow _ _

theorem clear (inGrid : CursorInGrid p h) : CursorInGrid p (clear h) := by
  unfold Machine.clear
  refine inGrid.withCs fun g inside => ?_
  split
  · exact inside.foldl (fun _ r zeroed => zeroed.zeroRow _ r) _
  · exact inside.foldl (fun _ r blanked => blanked.blankRow _ r) _

theorem writeGlyph (inGrid : CursorInGrid p h) (ch col row : Nat) (invert : Bool) :
    CursorInGrid p (writeGlyph ch col row invert h) := by
  unfold Machine.writeGlyph
  split
  · exact inGrid.issue _
  · exact inGrid

/-- Column 0 is in the grid, because some column is. -/
theorem firstColumn (inGrid : CursorInGrid p h) : CursorInGrid p { h with curCol := 0 } where
  params := inGrid.params
  col := Nat.zero_lt_of_lt inGrid.col
  row := inGrid.row

/-- Past the last row the content scrolls and the cursor stays in that row (R235). -/
theorem nextRow (inGrid : CursorInGrid p h) : CursorInGrid p (nextRow h) := by
  unfold Machine.nextRow
  split
  · exact inGrid.scroll
  · next notLast =>
    rw [inGrid.params] at notLast
    exact ⟨inGrid.params, inGrid.col, Nat.lt_of_le_of_ne inGrid.row notLast⟩

theorem newLine (inGrid : CursorInGrid p h) : CursorInGrid p (newLine h) := inGrid.firstColumn.nextRow

theorem writeTab (inGrid : CursorInGrid p h) : CursorInGrid p (writeTab h) := by
  unfold Machine.writeTab
  split
  · exact inGrid.newLine
  · next inside =>
    rw [inGrid.params] at inside
    exact ⟨inGrid.params, Nat.lt_of_not_le inside, inGrid.row⟩

/-- The column wraps after the last one (R233). -/
theorem advanceCursor (inGrid : CursorInGrid p h) : CursorInGrid p (advanceCursor h) := by
  unfold Machine.advanceCursor
  split
  · exact inGrid.newLine
  · next notLast =>
    rw [inGrid.params] at notLast
    exact ⟨inGrid.params, Nat.lt_of_le_of_ne inGrid.col notLast, inGrid.row⟩

/-- The four cases of a character: newline, carriage return, tab and glyph (R233). -/
theorem writeChar (inGrid : CursorInGrid p h) (ch : Nat) : CursorInGrid p (writeChar h ch) := by
  unfold Machine.writeChar
  split_ifs
  · exact inGrid.newLine
  · exact inGrid.firstColumn
  · exact inGrid.writeTab
  · exact (inGrid.writeGlyph _ _ _ _).advanceCursor

theorem writeString (inGrid : CursorInGrid p h) (chars : List Nat) : CursorInGrid p (writeString chars h) :=
  inGrid.foldl (fun _ ch inside => inside.writeChar ch) chars

/-- The positional form sets the cursor only to a place in the grid (R236). -/
theorem writeStringAt (inGrid : CursorInGrid p h) (chars : List Nat) (x y : Nat) :
    CursorInGrid p (writeStringAt chars x y h) := by
  unfold Machine.writeStringAt
  split
  · next place =>
    rw [inGrid.params] at place
    obtain ⟨col, row⟩ := place
    have placed : CursorInGrid p { h with curCol := x, curRow := y } := ⟨inGrid.params, col, row⟩
    exact placed.writeString chars
  · exact inGrid

end CursorInGrid

/-- Settles O60, routine by routine. -/
theorem cursorStaysInTheGrid : Obligations.CursorStaysInTheGrid := by
  intro h chars col row
  have inGrid : CursorInGrid h.block.config.val h := ⟨rfl, col, row⟩
  refine ⟨fun g routine => ?_, fun x y => ?_⟩
  · have kept : CursorInGrid h.block.config.val g := by
      simp only [List.mem_cons, List.not_mem_nil, or_false] at routine
      obtain rfl | rfl | rfl := routine
      · exact inGrid.writeString chars
      · exact inGrid.scroll
      · exact inGrid.clear
    exact ⟨kept.col, kept.row⟩
  · have kept := inGrid.writeStringAt chars x y
    exact ⟨kept.col, kept.row⟩

end Sys2Proof.Machine
end

section
/-! SUPPORT. Who writes the line buffer (R40, R80), and what a critical section holds off (R81, R218). -/

namespace Sys2Proof.Machine

/-- Only `EVA` and `RESET` write the line buffer (R50). -/
theorem exec_keeps_rl {i : Instr} {s t : State} (notEva : i ≠ .eva) (notReset : i ≠ .reset)
    (h : exec i s = .next t) : t.rl = s.rl := by
  cases i with
  | reset | eva => contradiction
  | pclk => exact (exec_pclk_frame h).rl
  | evb | outw => exact (exec_clockOut_frame rfl h).rl
  | start => obtain ⟨-, rfl⟩ | ⟨-, -, rfl⟩ | ⟨-, -, rfl⟩ := exec_start_cases h <;> rfl
  | _ => exact (exec_host_frame rfl (by simp) h).rl

/-- The service of event A makes a line visible, or leaves the line buffer (R120). -/
theorem serviceA_shows_or_keeps_rl (s : State) :
    (serviceA s).seq.visibleLine.isSome = true ∨ (serviceA s).rl = s.rl := by
  obtain ⟨fromBand, toBand, visible⟩ | ⟨-, hidden⟩ := serviceA_cases s
  · left; rw [visible]; simp [visibleLineOf, fromBand, toBand]
  · right; rw [hidden]

/-- Settles O39: besides `RESET` only `EVA` writes the line buffer, it is enabled only between two clock-outs (R264), and it
writes on a visible line only. -/
theorem lineBufferHoldsWhileEmitting : Obligations.LineBufferHoldsWhileEmitting := by
  intro i s t h changed
  by_cases isReset : i = .reset
  · exact .inl isReset
  by_cases isEva : i = .eva
  · subst isEva
    obtain ⟨enabled, rfl⟩ := exec_eva_next.mp h
    obtain ⟨-, -, -, noClockOut⟩ := (evaEnabled_iff s).mp enabled
    rw [answer_rl] at changed
    rw [answer_seq]
    exact .inr ⟨rfl, noClockOut, (serviceA_shows_or_keeps_rl s).resolve_right changed⟩
  · exact absurd (exec_keeps_rl isEva isReset h) changed

/-- While `HOLD` is set no service of an event completes, and only `CSEXIT` and `RESET` clear it (R38, R264). -/
theorem exec_of_held {i : Instr} {s t : State} (held : s.control.hold = true) (notExit : i ≠ .csexit)
    (notReset : i ≠ .reset) (h : exec i s = .next t) : i ≠ .eva ∧ i ≠ .evb ∧ t.control.hold = true := by
  refine ⟨?_, ?_, ?_⟩
  · rintro rfl
    obtain ⟨enabled, -⟩ := exec_eva_next.mp h
    simp [evaEnabled_iff, held] at enabled
  · rintro rfl
    obtain ⟨enabled, -⟩ := exec_evb_next.mp h
    simp [evbEnabled_iff, held] at enabled
  · obtain ⟨-, -, -, -, holdWrites⟩ := runAndErrorAreSticky i s t h
    by_cases isEnter : i = .csenter
    · subst isEnter; cases h; rfl
    · by_contra cleared
      simpa [isEnter, notExit, notReset] using holdWrites (by rw [held]; exact cleared)

/-- A run from a state with `HOLD` set serves no event and keeps `HOLD` until a `CSEXIT` or a `RESET`. -/
theorem runOps_of_held {ops : List Instr} {s t : State} (held : s.control.hold = true) (h : runOps ops s = .next t)
    (noExit : .csexit ∉ ops) (noReset : .reset ∉ ops) : .eva ∉ ops ∧ .evb ∉ ops ∧ t.control.hold = true := by
  induction ops generalizing s with
  | nil => cases h; simp [held]
  | cons i is ih =>
    obtain ⟨u, first, rest⟩ := runOps_cons_next.mp h
    simp only [List.mem_cons, not_or] at noExit noReset ⊢
    obtain ⟨notExit, noExitLater⟩ := noExit
    obtain ⟨notReset, noResetLater⟩ := noReset
    obtain ⟨notEva, notEvb, stillHeld⟩ := exec_of_held held (Ne.symm notExit) (Ne.symm notReset) first
    obtain ⟨noEvaLater, noEvbLater, heldAtEnd⟩ := ih stillHeld rest noExitLater noResetLater
    exact ⟨⟨notEva.symm, noEvaLater⟩, ⟨notEvb.symm, noEvbLater⟩, heldAtEnd⟩

/-- Settles O42: `CSENTER` sets `HOLD`, and the rest of the run is one from a held state. -/
theorem criticalSectionHoldsServicesOff : Obligations.CriticalSectionHoldsServicesOff := by
  intro ops s t h noExit noReset
  obtain ⟨u, enter, rest⟩ := runOps_cons_next.mp h
  obtain rfl : answer (setHold s true) none = u := by simpa [exec, execCsenter] using enter
  exact runOps_of_held rfl rest noExit noReset

end Sys2Proof.Machine
end

section
/-! SUPPORT. Runs as traces (R79, R90, R313): the decoder reads back an encoded operation, no operation looks at the trace
still to come, and the eager schedule is a run. -/

namespace Sys2Proof

/-- The decoder reads the operation and its operands back out of an encoded word: in every row of the opcode map the opcode
selects the row, and the fields are those it was assembled from (R96, R100). -/
theorem decode_encode (i : Instr) : decode (encode i) = .ok i := by
  cases i <;>
    simp [decode, encode, checked, Instr.format, zeroFieldsOk, opField_assembleWord, fField_assembleWord,
      xField_assembleWord, yField_assembleWord, zField_assembleWord]

end Sys2Proof

namespace Sys2Proof.Machine

/-! ## The trace still to come is no input of an operation -/

theorem shiftTick_loadTrace (s : State) (ws : List OpWord) :
    shiftTick (loadTrace s ws) = loadTrace (shiftTick s) ws := by
  rw [shiftTick_eq, shiftTick_eq]; rfl

theorem timerTick_loadTrace (s : State) (ws : List OpWord) :
    timerTick (loadTrace s ws) = loadTrace (timerTick s) ws := by
  cases run : s.control.run with
  | false => rw [timerTick_stopped s run, timerTick_stopped (loadTrace s ws) run]
  | true => rw [timerTick_eq s run, timerTick_eq (loadTrace s ws) run]; rfl

/-- The renderer reads the content store and the configuration (R140). -/
theorem showLine_loadTrace (s : State) (ws : List OpWord) :
    showLine (loadTrace s ws) = loadTrace (showLine s) ws := by
  unfold showLine; rw [apply_ite (loadTrace · ws)]; rfl

theorem serviceA_loadTrace (s : State) (ws : List OpWord) :
    serviceA (loadTrace s ws) = loadTrace (serviceA s) ws := by
  have upToShow : driveVsync (advanceLine (acknowledgeA (loadTrace s ws))) =
      loadTrace (driveVsync (advanceLine (acknowledgeA s))) ws := by
    rw [driveVsync_eq, driveVsync_eq, advanceLine_eq, advanceLine_eq]; rfl
  rw [serviceA, upToShow, showLine_loadTrace, serviceA]

theorem serviceB_loadTrace (s : State) (ws : List OpWord) :
    serviceB (loadTrace s ws) = loadTrace (serviceB s) ws := by
  rw [serviceB_eq, serviceB_eq]; rfl

theorem emitWord_loadTrace (s : State) (ws : List OpWord) :
    emitWord (loadTrace s ws) = loadTrace (emitWord s) ws := by
  rw [emitWord_eq, emitWord_eq]; rfl

theorem configure_loadTrace (s : State) (c : FrameTiming) (ws : List OpWord) :
    configure (loadTrace s ws) c = loadTrace (configure s c) ws := by
  rw [configure_eq, configure_eq]; rfl

theorem portWriteFb_loadTrace (s : State) (x y z : Word) (ws : List OpWord) :
    portWriteFb (loadTrace s ws) x y z = loadTrace (portWriteFb s x y z) ws := by
  unfold portWriteFb; rw [apply_ite (loadTrace · ws)]; rfl

theorem portWriteCell_loadTrace (s : State) (x y z : Word) (ws : List OpWord) :
    portWriteCell (loadTrace s ws) x y z = loadTrace (portWriteCell s x y z) ws := by
  unfold portWriteCell; rw [apply_ite (loadTrace · ws)]; rfl

theorem startChecked_loadTrace (s : State) (m : BitVec 5) (ws : List OpWord) :
    startChecked (loadTrace s ws) m = loadTrace (startChecked s m) ws := by
  unfold startChecked; rw [apply_ite (loadTrace · ws)]; rfl

/-- The answer to the host is a field beside the trace (R101). -/
theorem next_answer_of_eq_loadTrace {s t : State} {ws : List OpWord} (h : s = loadTrace t ws)
    (r : Option HostResult) :
    (Host.Outcome.next (answer s r) : Host.Outcome State Fault Refusal) = .next (loadTrace (answer t r) ws) := by
  rw [h]; rfl

/-- An operation that completes does the same with another trace still to come (R90). -/
theorem exec_loadTrace {i : Instr} {s t : State} (ws : List OpWord) (h : exec i s = .next t) :
    exec i (loadTrace s ws) = .next (loadTrace t ws) := by
  cases i with
  | reset | csenter | csexit | rdfc => cases h; rfl
  | pclk =>
    cases h
    exact next_answer_of_eq_loadTrace (by rw [shiftTick_loadTrace, timerTick_loadTrace]) none
  | eva =>
    obtain ⟨enabled, rfl⟩ := exec_eva_next.mp h
    exact exec_eva_next.mpr ⟨enabled, by rw [serviceA_loadTrace]; rfl⟩
  | evb =>
    obtain ⟨enabled, rfl⟩ := exec_evb_next.mp h
    exact exec_evb_next.mpr ⟨enabled, by rw [serviceB_loadTrace]; rfl⟩
  | outw =>
    obtain ⟨enabled, rfl⟩ := exec_outw_next.mp h
    exact exec_outw_next.mpr ⟨enabled, by rw [emitWord_loadTrace]; rfl⟩
  | cfgh | cfgv | cfgf => cases h; exact next_answer_of_eq_loadTrace (configure_loadTrace s _ ws) none
  | start =>
    cases h
    simp only [exec, execStart]
    rw [apply_ite (loadTrace · ws), ← startChecked_loadTrace]; rfl
  | fbwr x y z => cases h; exact next_answer_of_eq_loadTrace (portWriteFb_loadTrace s x y z ws) none
  | cellwr x y z => cases h; exact next_answer_of_eq_loadTrace (portWriteCell_loadTrace s x y z ws) none
  | fbrd | cellrd => cases h; rfl

/-! ## Runs -/

/-- A step on a trace that begins with the word of an operation performs that operation (R90, R100). -/
theorem step_encode {i : Instr} {s t : State} (ws : List OpWord) (h : exec i s = .next t) :
    step (loadTrace s (encode i :: ws)) = .next (loadTrace t ws) := by
  have performed : exec i (loadTrace s ws) = .next (loadTrace t ws) := exec_loadTrace ws h
  exact step_next.mpr ⟨encode i, ws, i, rfl, decode_encode i, performed⟩

/-- One step for each word of the encoded run (R79, R90). -/
theorem run_encode {ops : List Instr} {s t : State} (h : runOps ops s = .next t) :
    Host.Core.run Sys2Proof.core ops.length (loadTrace s (ops.map encode)) = .next (loadTrace t []) := by
  induction ops generalizing s with
  | nil => cases h; rfl
  | cons i is ih =>
    obtain ⟨u, first, rest⟩ := runOps_cons_next.mp h
    exact run_succ_next.mpr ⟨_, step_encode _ first, ih rest⟩

/-- The services that follow operation `i` under the eager schedule, when it ends in `u` (R313). -/
def servicesAfter (i : Instr) (u : State) : List Instr := if opensDrain i then drainOps (drainBound u) u else []

/-- One eager step is the operation and then a run of the services that follow it. -/
theorem eagerStep_next {i : Instr} {s t : State} :
    eagerStep i s = .next t ↔ ∃ u, exec i s = .next u ∧ runOps (servicesAfter i u) u = .next t := by
  cases h : exec i s with
  | next u => cases opens : opensDrain i <;> simp [eagerStep, servicesAfter, drain, h, opens]
  | fault r | refused r => simp [eagerStep, h]

/-- The eager trace writes the operation, the services that follow it, and then the trace of the rest. -/
theorem eagerTrace_cons {i : Instr} {is : List Instr} {s u t : State} (first : exec i s = .next u)
    (services : runOps (servicesAfter i u) u = .next t) :
    eagerTrace (i :: is) s = i :: (servicesAfter i u ++ eagerTrace is t) := by
  unfold servicesAfter at services ⊢
  simp [eagerTrace, first, services]

/-- An eager run of a list is an eager step of its head and an eager run of its tail. -/
theorem eagerRun_cons_next {i : Instr} {is : List Instr} {s t : State} :
    eagerRun (i :: is) s = .next t ↔ ∃ u, eagerStep i s = .next u ∧ eagerRun is u = .next t := by
  cases h : eagerStep i s <;> simp [eagerRun, h]

/-- An eager run is a run of its eager trace (R313). -/
theorem runOps_eagerTrace {ops : List Instr} {s t : State} (h : eagerRun ops s = .next t) :
    runOps (eagerTrace ops s) s = .next t := by
  induction ops generalizing s with
  | nil => exact h
  | cons i is ih =>
    obtain ⟨v, stepped, rest⟩ := eagerRun_cons_next.mp h
    obtain ⟨u, first, services⟩ := eagerStep_next.mp stepped
    rw [eagerTrace_cons first services, runOps_cons_next]
    exact ⟨u, first, runOps_append_next.mpr ⟨v, services, ih rest⟩⟩

/-- Settles O50: the words of the run through `step`, and the eager run through its trace. -/
theorem traceRunsThroughStep : Obligations.TraceRunsThroughStep :=
  fun _ _ _ => ⟨run_encode, runOps_eagerTrace⟩

end Sys2Proof.Machine
end

section
/-! SUPPORT. The encoding (R90 to R100): a word is its five fields, a row of the opcode map is an opcode with the zero fields
of its format, and the decoder gives each word the operation of its row or the rejection of R97 and R98. -/

namespace Sys2Proof

/-! ## A word is its five fields (R91) -/

/-- Words that agree on a field agree on each bit of it. -/
theorem getLsbD_eq_of_extractLsb'_eq {w v : OpWord} {lo n i : Nat} (field : w.extractLsb' lo n = v.extractLsb' lo n)
    (above : lo ≤ i) (below : i < lo + n) : w.getLsbD i = v.getLsbD i := by
  have bit := congrArg (BitVec.getLsbD · (i - lo)) field
  simpa [show i - lo < n by omega, show lo + (i - lo) = i by omega] using bit

/-- The five fields cover the word, so they determine it (R91). -/
theorem eq_of_fields {w v : OpWord} (op : opField w = opField v) (f : fField w = fField v) (x : xField w = xField v)
    (y : yField w = yField v) (z : zField w = zField v) : w = v := by
  apply BitVec.eq_of_getLsbD_eq
  intro i hi
  rcases lt_or_ge i 16 with h16 | h16
  · exact getLsbD_eq_of_extractLsb'_eq z (Nat.zero_le i) (by omega)
  rcases lt_or_ge i 32 with h32 | h32
  · exact getLsbD_eq_of_extractLsb'_eq y h16 (by omega)
  rcases lt_or_ge i 48 with h48 | h48
  · exact getLsbD_eq_of_extractLsb'_eq x h32 (by omega)
  rcases lt_or_ge i 56 with h56 | h56
  · exact getLsbD_eq_of_extractLsb'_eq f h48 (by omega)
  · exact getLsbD_eq_of_extractLsb'_eq op h56 (by omega)

theorem eq_iff_fields {w v : OpWord} :
    w = v ↔ opField w = opField v ∧ fField w = fField v ∧ xField w = xField v ∧ yField w = yField v ∧
      zField w = zField v :=
  ⟨by rintro rfl; exact ⟨rfl, rfl, rfl, rfl, rfl⟩, fun ⟨op, f, x, y, z⟩ => eq_of_fields op f x y z⟩

/-- A word whose field `f` is zero is assembled from its other fields (R91, R100). -/
theorem assembleWord_fields {w : OpWord} (f : fField w = 0#8) :
    assembleWord (opField w) (xField w) (yField w) (zField w) = w :=
  eq_of_fields (opField_assembleWord ..) ((fField_assembleWord ..).trans f.symm) (xField_assembleWord ..)
    (yField_assembleWord ..) (zField_assembleWord ..)

/-! ## The zero fields of a format (R92 to R94, R98) -/

theorem zeroFieldsOk_n_iff {w : OpWord} :
    zeroFieldsOk .n w = true ↔ fField w = 0#8 ∧ xField w = 0#16 ∧ yField w = 0#16 ∧ zField w = 0#16 := by
  simp [zeroFieldsOk, and_assoc]

theorem zeroFieldsOk_x3_iff {w : OpWord} : zeroFieldsOk .x3 w = true ↔ fField w = 0#8 := by simp [zeroFieldsOk]

theorem zeroFieldsOk_x2_iff {w : OpWord} : zeroFieldsOk .x2 w = true ↔ fField w = 0#8 ∧ zField w = 0#16 := by
  simp [zeroFieldsOk]

/-- Every format requires `f` to be zero (R91). -/
theorem fField_of_zeroFieldsOk {fmt : Format} {w : OpWord} (zeros : zeroFieldsOk fmt w = true) : fField w = 0#8 := by
  cases fmt with
  | n => exact (zeroFieldsOk_n_iff.mp zeros).1
  | x3 => exact zeroFieldsOk_x3_iff.mp zeros
  | x2 => exact (zeroFieldsOk_x2_iff.mp zeros).1

theorem assembleWord_of_zeroFieldsOk_n {w : OpWord} (zeros : zeroFieldsOk .n w = true) :
    assembleWord (opField w) 0#16 0#16 0#16 = w := by
  obtain ⟨f, x, y, z⟩ := zeroFieldsOk_n_iff.mp zeros
  simpa only [x, y, z] using assembleWord_fields f

theorem assembleWord_of_zeroFieldsOk_x3 {w : OpWord} (zeros : zeroFieldsOk .x3 w = true) :
    assembleWord (opField w) (xField w) (yField w) (zField w) = w :=
  assembleWord_fields (zeroFieldsOk_x3_iff.mp zeros)

theorem assembleWord_of_zeroFieldsOk_x2 {w : OpWord} (zeros : zeroFieldsOk .x2 w = true) :
    assembleWord (opField w) (xField w) (yField w) 0#16 = w := by
  obtain ⟨f, z⟩ := zeroFieldsOk_x2_iff.mp zeros
  simpa only [z] using assembleWord_fields f

/-! ## Matching a row of the opcode map (R96, R100) -/

theorem opField_and (w v : OpWord) : opField (w &&& v) = opField w &&& opField v := BitVec.extractLsb'_and

theorem fField_and (w v : OpWord) : fField (w &&& v) = fField w &&& fField v := BitVec.extractLsb'_and

theorem xField_and (w v : OpWord) : xField (w &&& v) = xField w &&& xField v := BitVec.extractLsb'_and

theorem yField_and (w v : OpWord) : yField (w &&& v) = yField w &&& yField v := BitVec.extractLsb'_and

theorem zField_and (w v : OpWord) : zField (w &&& v) = zField w &&& zField v := BitVec.extractLsb'_and

/-- The match value of a row is its opcode above zero fields (R96). -/
theorem matchWord_eq_assembleWord (op : Byte) : matchWord op = assembleWord op 0#16 0#16 0#16 := by
  simp [matchWord, assembleWord]

/-- The mask of a format keeps the opcode and the fields the format requires to be zero, so a word matches a row when it has
the row's opcode and these fields are zero (R96, R98, R100). -/
theorem and_mask_eq_matchWord_iff (w : OpWord) (op : Byte) (fmt : Format) :
    w &&& fmt.mask = matchWord op ↔ opField w = op ∧ zeroFieldsOk fmt w = true := by
  have keepByte (b : Byte) : b &&& 0xFF#8 = b := BitVec.and_allOnes
  have keepWord (b : Word) : b &&& 0xFFFF#16 = b := BitVec.and_allOnes
  rw [matchWord_eq_assembleWord, eq_iff_fields]
  simp only [opField_and, fField_and, xField_and, yField_and, zField_and, opField_assembleWord, fField_assembleWord,
    xField_assembleWord, yField_assembleWord, zField_assembleWord]
  cases fmt with
  | n =>
    obtain ⟨op1, f1, x1, y1, z1⟩ : opField Format.n.mask = 0xFF#8 ∧ fField Format.n.mask = 0xFF#8 ∧
        xField Format.n.mask = 0xFFFF#16 ∧ yField Format.n.mask = 0xFFFF#16 ∧ zField Format.n.mask = 0xFFFF#16 := by
      decide
    simp only [op1, f1, x1, y1, z1, keepByte, keepWord, zeroFieldsOk_n_iff]
  | x3 =>
    obtain ⟨op1, f1, x0, y0, z0⟩ : opField Format.x3.mask = 0xFF#8 ∧ fField Format.x3.mask = 0xFF#8 ∧
        xField Format.x3.mask = 0#16 ∧ yField Format.x3.mask = 0#16 ∧ zField Format.x3.mask = 0#16 := by decide
    simp only [op1, f1, x0, y0, z0, keepByte, BitVec.and_zero, and_true, zeroFieldsOk_x3_iff]
  | x2 =>
    obtain ⟨op1, f1, x0, y0, z1⟩ : opField Format.x2.mask = 0xFF#8 ∧ fField Format.x2.mask = 0xFF#8 ∧
        xField Format.x2.mask = 0#16 ∧ yField Format.x2.mask = 0#16 ∧ zField Format.x2.mask = 0xFFFF#16 := by decide
    simp only [op1, f1, x0, y0, z1, keepByte, keepWord, BitVec.and_zero, true_and, zeroFieldsOk_x2_iff]

/-- No opcode has two rows (R96). -/
theorem opcodeMap_opcodes_nodup : (opcodeMap.map Prod.fst).Nodup := by decide

/-- So an opcode has one format. -/
theorem format_unique {op : Byte} {fmt fmt' : Format} (row : (op, fmt) ∈ opcodeMap) (row' : (op, fmt') ∈ opcodeMap) :
    fmt = fmt' :=
  congrArg Prod.snd (List.inj_on_of_nodup_map opcodeMap_opcodes_nodup row row' rfl)

/-- The rows that match a word are among the rows with its opcode, and there is at most one of these. -/
theorem length_filter_rowMatches_le_one (w : OpWord) : (opcodeMap.filter (rowMatches w)).length ≤ 1 := by
  have sameOpcode (row : Byte × Format) (matched : rowMatches w row = true) : (row.1 == opField w) = true := by
    have masked : w &&& row.2.mask = matchWord row.1 := by simpa [rowMatches] using matched
    exact beq_iff_eq.mpr ((and_mask_eq_matchWord_iff w row.1 row.2).mp masked).1.symm
  calc (opcodeMap.filter (rowMatches w)).length
      = opcodeMap.countP (rowMatches w) := List.countP_eq_length_filter.symm
    _ ≤ opcodeMap.countP ((· == opField w) ∘ Prod.fst) :=
        List.countP_mono_left fun row _ matched => sameOpcode row matched
    _ = (opcodeMap.map Prod.fst).count (opField w) := List.countP_map.symm
    _ ≤ 1 := List.nodup_iff_count_le_one.mp opcodeMap_opcodes_nodup _

/-! ## The decoder row by row (R97, R98, R100) -/

/-- `i` is the operation that the fields of `w` spell: the opcode of `w` has a row with the format of `i`, and when the zero
fields of that format are zero, `w` is the word of `i`. -/
structure SpelledBy (w : OpWord) (i : Instr) : Prop where
  row : (opField w, i.format) ∈ opcodeMap
  encoded : zeroFieldsOk i.format w = true → encode i = w

theorem spelledBy_of_n {w : OpWord} {op : Byte} {i : Instr} (opcode : opField w = op) (row : (op, Format.n) ∈ opcodeMap)
    (fmt : i.format = .n) (word : encode i = assembleWord op 0#16 0#16 0#16) : SpelledBy w i := by
  subst opcode
  exact ⟨fmt ▸ row, fun zeros => word.trans (assembleWord_of_zeroFieldsOk_n (fmt ▸ zeros))⟩

theorem spelledBy_of_x3 {w : OpWord} {op : Byte} {i : Instr} (opcode : opField w = op)
    (row : (op, Format.x3) ∈ opcodeMap) (fmt : i.format = .x3)
    (word : encode i = assembleWord op (xField w) (yField w) (zField w)) : SpelledBy w i := by
  subst opcode
  exact ⟨fmt ▸ row, fun zeros => word.trans (assembleWord_of_zeroFieldsOk_x3 (fmt ▸ zeros))⟩

theorem spelledBy_of_x2 {w : OpWord} {op : Byte} {i : Instr} (opcode : opField w = op)
    (row : (op, Format.x2) ∈ opcodeMap) (fmt : i.format = .x2)
    (word : encode i = assembleWord op (xField w) (yField w) 0#16) : SpelledBy w i := by
  subst opcode
  exact ⟨fmt ▸ row, fun zeros => word.trans (assembleWord_of_zeroFieldsOk_x2 (fmt ▸ zeros))⟩

/-- What the decoder does with any word: its opcode has a row, and the zero fields of the operation it spells are checked; or
its opcode has no row, and the word is rejected by its opcode (R97, R98, R100). -/
theorem decode_cases (w : OpWord) :
    (∃ i, SpelledBy w i ∧ decode w = checked w i) ∨
      (∀ fmt, (opField w, fmt) ∉ opcodeMap) ∧ decode w = .error (.reservedOpcode (opField w)) := by
  unfold decode
  split
  case h_1 op | h_2 op | h_3 op | h_4 op | h_5 op | h_9 op | h_10 op | h_11 op | h_12 op =>
    exact .inl ⟨_, spelledBy_of_n op (by decide) rfl rfl, rfl⟩
  case h_6 op | h_7 op | h_8 op | h_13 op | h_15 op =>
    exact .inl ⟨_, spelledBy_of_x3 op (by decide) rfl rfl, rfl⟩
  case h_14 op | h_16 op => exact .inl ⟨_, spelledBy_of_x2 op (by decide) rfl rfl, rfl⟩
  case h_17 => exact .inr ⟨by simp_all [opcodeMap], rfl⟩

theorem checked_of_zeroFieldsOk {w : OpWord} {i : Instr} (zeros : zeroFieldsOk i.format w = true) :
    checked w i = .ok i := if_pos zeros

theorem checked_of_not_zeroFieldsOk {w : OpWord} {i : Instr} (zeros : zeroFieldsOk i.format w ≠ true) :
    checked w i = .error (.reservedField (opField w)) := if_neg zeros

theorem checked_eq_ok_iff {w : OpWord} {i j : Instr} :
    checked w i = .ok j ↔ i = j ∧ zeroFieldsOk i.format w = true := by
  unfold checked; split <;> simp_all

/-- A word that decodes is spelled by its operation, whose zero fields are zero in it. -/
theorem spelledBy_of_decode {w : OpWord} {i : Instr} (decoded : decode w = .ok i) :
    SpelledBy w i ∧ zeroFieldsOk i.format w = true := by
  rcases decode_cases w with ⟨j, spelled, known⟩ | ⟨-, reserved⟩
  · obtain ⟨rfl, zeros⟩ := checked_eq_ok_iff.mp (known.symm.trans decoded)
    exact ⟨spelled, zeros⟩
  · cases reserved.symm.trans decoded

/-- A word whose opcode has a row of format `fmt` is checked as an operation of that format. -/
theorem decode_of_row {w : OpWord} {fmt : Format} (row : (opField w, fmt) ∈ opcodeMap) :
    ∃ i : Instr, i.format = fmt ∧ decode w = checked w i := by
  rcases decode_cases w with ⟨i, spelled, known⟩ | ⟨noRow, -⟩
  · exact ⟨i, format_unique spelled.row row, known⟩
  · exact absurd row (noRow fmt)

theorem decode_of_no_row {w : OpWord} (noRow : ∀ fmt, (opField w, fmt) ∉ opcodeMap) :
    decode w = .error (.reservedOpcode (opField w)) := by
  rcases decode_cases w with ⟨i, spelled, -⟩ | ⟨-, reserved⟩
  · exact absurd spelled.row (noRow _)
  · exact reserved

/-- A row and a non-zero field that its format requires to be zero: the word is rejected by that (R98). -/
theorem decode_of_row_of_not_zeroFieldsOk {w : OpWord} {fmt : Format} (row : (opField w, fmt) ∈ opcodeMap)
    (zeros : zeroFieldsOk fmt w ≠ true) : decode w = .error (.reservedField (opField w)) := by
  obtain ⟨i, rfl, known⟩ := decode_of_row row
  exact known.trans (checked_of_not_zeroFieldsOk zeros)

/-- The decoder accepts the words with a row's opcode and the zero fields of that row. -/
theorem decode_isOk_iff {w : OpWord} :
    (∃ i, decode w = .ok i) ↔ ∃ row ∈ opcodeMap, opField w = row.1 ∧ zeroFieldsOk row.2 w = true := by
  constructor
  · rintro ⟨i, decoded⟩
    obtain ⟨spelled, zeros⟩ := spelledBy_of_decode decoded
    exact ⟨_, spelled.row, rfl, zeros⟩
  · rintro ⟨⟨op, fmt⟩, row, rfl, zeros⟩
    obtain ⟨i, rfl, known⟩ := decode_of_row row
    exact ⟨i, known.trans (checked_of_zeroFieldsOk zeros)⟩

/-- The opcodes of the rows are outside the reserved ranges (R97). -/
theorem opcode_not_reserved_of_row : ∀ row ∈ opcodeMap,
    ¬(row.1.toNat = 0x00 ∨ (0x06 ≤ row.1.toNat ∧ row.1.toNat ≤ 0x0F) ∨
      (0x17 ≤ row.1.toNat ∧ row.1.toNat ≤ 0x1F) ∨ (0x24 ≤ row.1.toNat ∧ row.1.toNat ≤ 0xFF)) := by decide

/-! ## The statements about the words alone -/

/-- Settles O1: the opcode of the encoded word selects its row, and the fields are those it was assembled from. -/
theorem decodeInvertsEncode : Obligations.DecodeInvertsEncode := decode_encode

/-- Settles O2: the accepted word has zero in every field that the operation does not carry. -/
theorem encodeInvertsDecode : Obligations.EncodeInvertsDecode := by
  intro w i decoded
  obtain ⟨spelled, zeros⟩ := spelledBy_of_decode decoded
  exact spelled.encoded zeros

/-- Settles O3: matching a row is having its opcode and its zero fields, and opcodes do not repeat. -/
theorem decoderAcceptsTheOpcodeMap : Obligations.DecoderAcceptsTheOpcodeMap := by
  intro w
  simp only [and_mask_eq_matchWord_iff]
  exact ⟨decode_isOk_iff, length_filter_rowMatches_le_one w⟩

/-- Settles O4, clause by clause. -/
theorem reservedWordsAreRejected : Obligations.ReservedWordsAreRejected := by
  intro w
  refine ⟨fun reserved => decode_of_no_row fun _ row => opcode_not_reserved_of_row _ row reserved, fun f => ?_,
    fun row nonzero => ?_, fun row z => ?_,
    decode_of_no_row fun _ row => opcode_not_reserved_of_row _ row (.inl rfl)⟩
  · cases decoded : decode w with
    | error e => exact ⟨e, rfl⟩
    | ok i => exact absurd (fField_of_zeroFieldsOk (spelledBy_of_decode decoded).2) f
  · refine decode_of_row_of_not_zeroFieldsOk row fun zeros => ?_
    obtain ⟨-, x, y, z⟩ := zeroFieldsOk_n_iff.mp zeros
    rcases nonzero with nx | ny | nz
    exacts [nx x, ny y, nz z]
  · exact decode_of_row_of_not_zeroFieldsOk row fun zeros => z (zeroFieldsOk_x2_iff.mp zeros).2

/-- Settles O5: each word is the encoded word of its operation. -/
theorem writtenWordsDecode : Obligations.WrittenWordsDecode :=
  ⟨decode_encode .reset, decode_encode .pclk, decode_encode .eva, decode_encode .outw, decode_encode (.cfgh 48 4 8),
    decode_encode (.cfgf 1 7 2), decode_encode .rdfc, decode_encode (.fbwr 1 0 0x8001), decode_encode (.cellrd 3 1)⟩

end Sys2Proof

namespace Sys2Proof.Machine

/-! ## The step takes the first word of the trace (R90, R99) -/

theorem fetch_nil {s : State} (trace : s.trace = []) : fetch s = none := by simp [fetch, trace]

theorem fetch_cons {s : State} {w : OpWord} {ws : List OpWord} (trace : s.trace = w :: ws) :
    fetch s = some (w, { s with trace := ws }) := by simp [fetch, trace]

/-- Settles O6. -/
theorem stepRunsTheDecodedOperation : Obligations.StepRunsTheDecodedOperation := by
  intro s w ws i trace decoded
  simp only [step, fetch_cons trace, decoded]

/-- Settles O7: the rejection of the decoder is the reason of the refusal, and no word is left to take at the end. -/
theorem stepRefusesInvalidWords : Obligations.StepRefusesInvalidWords := by
  constructor
  · intro s w ws e trace rejected
    simp only [step, fetch_cons trace, rejected]
  · intro s trace
    simp only [step, fetch_nil trace]

/-- An operation word is its number: 64 bits hold all of it (R91). -/
theorem ofNat_toNat_mod (w : OpWord) : BitVec.ofNat 64 (w.toNat % 2 ^ 64) = w := by
  rw [Nat.mod_eq_of_lt w.isLt, BitVec.ofNat_toNat, BitVec.setWidth_eq]

/-- Settles O8: the step takes the encoded word off again, and the decoder reads the operation back from it. -/
theorem encodedOperationPlacedNextRuns : Obligations.EncodedOperationPlacedNextRuns := by
  intro i s
  constructor
  · have placed : (s.withFetchWord 64 (encode i).toNat).trace = encode i :: s.trace := by
      rw [State.withFetchWord, ofNat_toNat_mod, pushWord_trace]
    exact stepRunsTheDecodedOperation _ _ _ _ placed (decode_encode i)
  · simp only [decodeTableWord, ofNat_toNat_mod, decode_encode]

end Sys2Proof.Machine
end

section
/-! SUPPORT. The line sequencer over a run (R120 to R128): where a number of services of event A take `LINE` and `FRAME`, and
what the outputs are over the lines of a frame. -/

namespace Sys2Proof.Machine

/-! ## One service of event A -/

/-- Settles O14: the whole next state of an enabled `EVA`. -/
theorem evaAdvancesTheLine : Obligations.EvaAdvancesTheLine := by
  intro s run pendA notHeld notEmitting wraps l
  have enabled := (evaEnabled_iff s).mpr ⟨run, pendA, notHeld, notEmitting⟩
  have completes : exec .eva s = .next (answer (serviceA s) none) := exec_eva_next.mpr ⟨enabled, rfl⟩
  obtain ⟨-, rl, whole, -⟩ := exec_eva_cases completes
  exact ⟨_, rl, completes.trans (congrArg Host.Outcome.next whole)⟩

/-- Settles O15: the two cases of the service, the line in the visible band or outside it. -/
theorem evaShowsTheVisibleLine : Obligations.EvaShowsTheVisibleLine := by
  intro s t h
  obtain ⟨-, rfl⟩ := exec_eva_next.mp h
  obtain ⟨fromBand, toBand, shown⟩ | ⟨outside, hidden⟩ := serviceA_cases s
  · rw [shown]
    exact ⟨fun _ => ⟨if_pos ⟨fromBand, toBand⟩, rfl, renderLine_length s _⟩,
      fun outside => absurd ⟨fromBand, toBand⟩ outside⟩
  · rw [hidden]
    exact ⟨fun inside => absurd inside outside, fun _ => ⟨rfl, rfl⟩⟩

/-! ## The raster position after a number of services -/

/-- The block runs, on a line of its frame: all that the advance of `LINE` and `FRAME` rests on (R124). -/
structure InFrame (s : State) : Prop where
  run : s.control.run = true
  line : s.seq.line.toNat < s.timing.vTotal.toNat

/-- `LINE` after `k` more services of event A. -/
def lineAfter (s : State) (k : Nat) : Nat := (s.seq.line.toNat + k) % s.timing.vTotal.toNat

/-- `FRAME` after `k` more services of event A. -/
def frameAfter (s : State) (k : Nat) : Word32 :=
  s.seq.frame + BitVec.ofNat 32 ((s.seq.line.toNat + k) / s.timing.vTotal.toNat)

theorem lineAfter_zero {s : State} (inFrame : InFrame s) : lineAfter s 0 = s.seq.line.toNat :=
  Nat.mod_eq_of_lt inFrame.line

theorem frameAfter_zero {s : State} (inFrame : InFrame s) : frameAfter s 0 = s.seq.frame := by
  simp [frameAfter, Nat.div_eq_of_lt inFrame.line]

/-- `V_TOTAL` services are one turn of the line counter. -/
theorem lineAfter_vTotal {s : State} (inFrame : InFrame s) :
    lineAfter s s.timing.vTotal.toNat = s.seq.line.toNat := by
  rw [lineAfter, Nat.add_mod_right, Nat.mod_eq_of_lt inFrame.line]

/-- The line counter wraps exactly once in `V_TOTAL` services. -/
theorem frameAfter_vTotal {s : State} (inFrame : InFrame s) :
    frameAfter s s.timing.vTotal.toNat = s.seq.frame + 1#32 := by
  have total_pos : 0 < s.timing.vTotal.toNat := Nat.zero_lt_of_lt inFrame.line
  rw [frameAfter, Nat.add_div_right _ total_pos, Nat.div_eq_of_lt inFrame.line]

/-- The position after `k` services is that of the registers it is made of. -/
theorem lineAfter_congr {s t : State} (seq : t.seq = s.seq) (timing : t.timing = s.timing) (k : Nat) :
    lineAfter t k = lineAfter s k := by
  rw [lineAfter, lineAfter, seq, timing]

theorem frameAfter_congr {s t : State} (seq : t.seq = s.seq) (timing : t.timing = s.timing) (k : Nat) :
    frameAfter t k = frameAfter s k := by
  rw [frameAfter, frameAfter, seq, timing]

/-! ## What an operation does to the position -/

/-- The configuration registers of a running block stay until a `RESET` (R22, R207). -/
theorem exec_running_timing {i : Instr} {s t : State} (run : s.control.run = true) (notReset : i ≠ .reset)
    (h : exec i s = .next t) : t.timing = s.timing :=
  (exec_timing_cases notReset h).resolve_right fun ⟨hopen, _⟩ => by simp [setupOpen, run] at hopen

/-- A running block runs until a `RESET` (R37). -/
theorem exec_running_run {i : Instr} {s t : State} (run : s.control.run = true) (notReset : i ≠ .reset)
    (h : exec i s = .next t) : t.control.run = true := by
  obtain ⟨keepsRun, -⟩ := runAndErrorAreSticky i s t h
  exact keepsRun run notReset

/-- In a running block only `EVA` and `RESET` write the sequencer: a `START` starts nothing (R50, R210). -/
theorem exec_running_seq {i : Instr} {s t : State} (run : s.control.run = true) (notReset : i ≠ .reset)
    (notEva : i ≠ .eva) (h : exec i s = .next t) : t.seq = s.seq := by
  by_cases isStart : i = .start
  · subst isStart
    exact (exec_start_hostFrame h (by simp [run])).seq
  · exact exec_keeps_seq notEva notReset isStart h

/-- One service of event A moves `LINE` and `FRAME` on by one line, the wrap at `V_TOTAL` included (R29, R30). -/
theorem exec_eva_position {s t : State} (inFrame : InFrame s) (h : exec .eva s = .next t) :
    InFrame t ∧ (∀ k, lineAfter t k = lineAfter s (k + 1)) ∧ ∀ k, frameAfter t k = frameAfter s (k + 1) := by
  obtain ⟨-, rl, rfl, -⟩ := exec_eva_cases h
  have below := inFrame.line
  have next := nextLine_toNat below
  by_cases wrap : s.seq.line.toNat + 1 = s.timing.vTotal.toNat
  · rw [if_pos wrap] at next
    have total_pos : 0 < s.timing.vTotal.toNat := Nat.zero_lt_of_lt below
    have counted : nextFrame s = s.seq.frame + 1#32 := if_pos wrap
    have turn (k : Nat) : s.seq.line.toNat + (k + 1) = k + s.timing.vTotal.toNat := by omega
    refine ⟨⟨inFrame.run, by simpa only [next] using total_pos⟩, fun k => ?_, fun k => ?_⟩
    · simp only [lineAfter, next, turn, Nat.zero_add, Nat.add_mod_right]
    · simp only [frameAfter, next, turn, counted, Nat.zero_add, Nat.add_div_right k total_pos, BitVec.ofNat_add,
        BitVec.add_assoc, BitVec.add_comm 1#32]
  · rw [if_neg wrap] at next
    have kept : nextFrame s = s.seq.frame := if_neg wrap
    refine ⟨⟨inFrame.run, by simp only [next]; omega⟩, fun k => ?_, fun k => ?_⟩
    · simp only [lineAfter, next, Nat.add_assoc, Nat.add_comm 1]
    · simp only [frameAfter, next, kept, Nat.add_assoc, Nat.add_comm 1]

/-- An operation moves the position on by one line if it is `EVA`, and leaves it if it is any other but `RESET`. -/
theorem exec_position {i : Instr} {s t : State} (inFrame : InFrame s) (notReset : i ≠ .reset)
    (h : exec i s = .next t) :
    InFrame t ∧ (∀ k, lineAfter t k = lineAfter s (k + if i == .eva then 1 else 0)) ∧
      ∀ k, frameAfter t k = frameAfter s (k + if i == .eva then 1 else 0) := by
  by_cases isEva : i = .eva
  · subst isEva
    exact exec_eva_position inFrame h
  · have seq := exec_running_seq inFrame.run notReset isEva h
    have timing := exec_running_timing inFrame.run notReset h
    have stays : (if i == .eva then 1 else 0) = 0 := by simp [isEva]
    rw [stays]
    exact ⟨⟨exec_running_run inFrame.run notReset h, by rw [seq, timing]; exact inFrame.line⟩,
      lineAfter_congr seq timing, frameAfter_congr seq timing⟩

/-- A run without `RESET` is an operation other than `RESET` and a run without one. -/
theorem runOps_cons_noReset {i : Instr} {is : List Instr} {s t : State} (h : runOps (i :: is) s = .next t)
    (noReset : .reset ∉ i :: is) :
    ∃ u, i ≠ .reset ∧ exec i s = .next u ∧ .reset ∉ is ∧ runOps is u = .next t := by
  obtain ⟨u, first, rest⟩ := runOps_cons_next.mp h
  obtain ⟨notReset, noResetLater⟩ := not_or.mp (mt List.mem_cons.mpr noReset)
  exact ⟨u, Ne.symm notReset, first, noResetLater, rest⟩

/-- A run without `RESET` takes `LINE` and `FRAME` as far as its services of event A say, whatever stands between them. -/
theorem runOps_position {ops : List Instr} {s t : State} (inFrame : InFrame s) (h : runOps ops s = .next t)
    (noReset : .reset ∉ ops) :
    t.seq.line.toNat = lineAfter s (ops.count .eva) ∧ t.seq.frame = frameAfter s (ops.count .eva) := by
  induction ops generalizing s with
  | nil => cases h; exact ⟨(lineAfter_zero inFrame).symm, (frameAfter_zero inFrame).symm⟩
  | cons i is ih =>
    obtain ⟨u, notReset, first, noResetLater, rest⟩ := runOps_cons_noReset h noReset
    obtain ⟨inFrame', line, frame⟩ := exec_position inFrame notReset first
    rw [List.count_cons, ← line, ← frame]
    exact ih inFrame' rest noResetLater

/-- Settles O44: `V_TOTAL` services are one turn of the line counter, and it wraps once in them. -/
theorem frameTakesVTotalServices : Obligations.FrameTakesVTotalServices := by
  intro ops s t run below h noReset services
  have inFrame : InFrame s := ⟨run, below⟩
  obtain ⟨line, frame⟩ := runOps_position inFrame h noReset
  rw [services, lineAfter_vTotal inFrame] at line
  rw [services, frameAfter_vTotal inFrame] at frame
  exact ⟨BitVec.eq_of_toNat_eq line, frame⟩

/-! ## The states right after the services -/

/-- A list of operations is observed right after its first one if that is `EVA`, and then over the rest. -/
theorem statesAfterEva_cons {i : Instr} {is : List Instr} {s t : State} (h : exec i s = .next t) :
    statesAfterEva (i :: is) s = if i = .eva then t :: statesAfterEva is t else statesAfterEva is t := by
  simp only [statesAfterEva, h]

/-- The services of a run without `RESET` step through the lines one by one. -/
theorem map_line_statesAfterEva {ops : List Instr} {s t : State} (inFrame : InFrame s) (h : runOps ops s = .next t)
    (noReset : .reset ∉ ops) :
    (statesAfterEva ops s).map (fun u => u.seq.line.toNat) =
      (List.range (ops.count .eva)).map fun k => lineAfter s (k + 1) := by
  induction ops generalizing s with
  | nil => rfl
  | cons i is ih =>
    obtain ⟨u, notReset, first, noResetLater, rest⟩ := runOps_cons_noReset h noReset
    obtain ⟨inFrame', line, -⟩ := exec_position inFrame notReset first
    have later := ih inFrame' rest noResetLater
    rw [statesAfterEva_cons first, List.count_cons]
    by_cases isEva : i = .eva
    · subst isEva
      have here : u.seq.line.toNat = lineAfter s 1 := (lineAfter_zero inFrame').symm.trans (line 0)
      simp [List.range_succ_eq_map, later, here, line, Function.comp_def]
    · simp [isEva, later, line]

/-- The states a run of a running block without `RESET` is observed in keep the invariant and the configuration. -/
theorem rasterInv_of_mem_statesAfterEva {ops : List Instr} {s t u : State} (inv : Inv s)
    (run : s.control.run = true) (h : runOps ops s = .next t) (noReset : .reset ∉ ops)
    (observed : u ∈ statesAfterEva ops s) : RasterInv u ∧ u.timing = s.timing := by
  induction ops generalizing s with
  | nil => cases observed
  | cons i is ih =>
    obtain ⟨v, notReset, first, noResetLater, rest⟩ := runOps_cons_noReset h noReset
    have inv' := exec_keeps_inv inv first
    have run' := exec_running_run run notReset first
    have timing := exec_running_timing run notReset first
    rw [statesAfterEva_cons first] at observed
    have now_or_later : u = v ∨ u ∈ statesAfterEva is v := by
      split at observed
      · exact List.mem_cons.mp observed
      · exact .inr observed
    obtain rfl | later := now_or_later
    · exact ⟨inv'.running run', timing⟩
    · obtain ⟨raster, timing'⟩ := ih inv' run' rest noResetLater later
      exact ⟨raster, timing'.trans timing⟩

/-- From the last line of a frame, the services of one frame step through all its lines from 0. -/
theorem map_line_statesAfterEva_frame {ops : List Instr} {s t : State} (run : s.control.run = true)
    (last : s.seq.line.toNat + 1 = s.timing.vTotal.toNat) (h : runOps ops s = .next t) (noReset : .reset ∉ ops)
    (services : ops.count .eva = s.timing.vTotal.toNat) :
    (statesAfterEva ops s).map (fun u => u.seq.line.toNat) = List.range s.timing.vTotal.toNat := by
  rw [map_line_statesAfterEva ⟨run, by omega⟩ h noReset, services]
  refine (List.map_congr_left fun k below => ?_).trans (List.map_id _)
  have turn : s.seq.line.toNat + (k + 1) = k + s.timing.vTotal.toNat := by omega
  rw [lineAfter, turn, Nat.add_mod_right, Nat.mod_eq_of_lt (List.mem_range.mp below), id]

/-- An output that the invariant makes a function of the line takes the values of that function on the lines of the frame,
in order. -/
theorem map_statesAfterEva_frame {α : Type} {ops : List Instr} {s t : State} (inv : Inv s)
    (run : s.control.run = true) (last : s.seq.line.toNat + 1 = s.timing.vTotal.toNat) (h : runOps ops s = .next t)
    (noReset : .reset ∉ ops) (services : ops.count .eva = s.timing.vTotal.toNat) {output : State → α} {ofLine : Nat → α}
    (right : ∀ u, RasterInv u → u.timing = s.timing → output u = ofLine u.seq.line.toNat) :
    (statesAfterEva ops s).map output = (List.range s.timing.vTotal.toNat).map ofLine := by
  rw [← map_line_statesAfterEva_frame run last h noReset services, List.map_map]
  refine List.map_congr_left fun u observed => ?_
  obtain ⟨raster, timing⟩ := rasterInv_of_mem_statesAfterEva inv run h noReset observed
  exact right u raster timing

/-! ## The outputs over the lines of a frame -/

theorem map_range_eq_replicate {α : Type} {n : Nat} {f : Nat → α} {b : α} (const : ∀ k < n, f k = b) :
    (List.range n).map f = List.replicate n b := by
  rw [List.eq_replicate_iff]
  simpa using const

/-- The sync band comes first (R121, R125). -/
theorem map_vsync_lines {vSync total : Nat} (fits : vSync ≤ total) :
    (List.range total).map (fun n => decide (n < vSync)) =
      List.replicate vSync true ++ List.replicate (total - vSync) false := by
  obtain ⟨rest, rfl⟩ := Nat.exists_eq_add_of_le fits
  rw [Nat.add_sub_cancel_left, List.range_add, List.map_append, List.map_map]
  congr 1
  · exact map_range_eq_replicate fun k below => decide_eq_true below
  · exact map_range_eq_replicate fun k _ => decide_eq_false (Nat.not_lt.mpr (Nat.le_add_right _ _))

/-- The visible lines are numbered from 0 up, after the sync band and the back porch and before the front porch
(R121, R126). -/
theorem map_visibleLineOf_lines {p : Params} {t : FrameTiming} (valid : checkMask p t = 0#5) :
    (List.range t.vTotal.toNat).map (visibleLineOf t) =
      List.replicate t.visibleFrom none ++
        (List.range t.vVisible.toNat).map (fun k => some (BitVec.ofNat 16 k)) ++
        List.replicate t.vFront.toNat none := by
  obtain ⟨-, -, total⟩ := vertical_of_valid valid
  rw [← total, FrameTiming.visibleTo, List.range_add, List.range_add, List.map_append, List.map_append, List.map_map,
    List.map_map]
  congr 2
  · exact map_range_eq_replicate fun k below => if_neg (by omega)
  · refine List.map_congr_left fun k below => ?_
    have inside : t.visibleFrom ≤ t.visibleFrom + k ∧ t.visibleFrom + k < t.visibleTo :=
      ⟨Nat.le_add_right _ _, Nat.add_lt_add_left (List.mem_range.mp below) _⟩
    rw [Function.comp, visibleLineOf, if_pos inside, Nat.add_sub_cancel_left]
  · exact map_range_eq_replicate fun k _ => if_neg (by simp only [FrameTiming.visibleTo]; omega)

/-- Settles O45: each service observes the next line of the frame, and under the invariant both outputs are functions of the
line. -/
theorem syncAndVisibleLinesOfAFrame : Obligations.SyncAndVisibleLinesOfAFrame := by
  intro ops s t inv run last h noReset services
  have valid := (inv.running run).timingValid
  obtain ⟨-, -, total⟩ := vertical_of_valid valid
  have syncFits : s.timing.vSync.toNat ≤ s.timing.vTotal.toNat := by
    simp only [FrameTiming.visibleTo, FrameTiming.visibleFrom] at total
    omega
  have overFrame {α : Type} {output : State → α} {ofLine : Nat → α} :=
    map_statesAfterEva_frame inv run last h noReset services (output := output) (ofLine := ofLine)
  constructor
  · exact (overFrame fun u raster timing => timing ▸ raster.vsyncRight).trans (map_vsync_lines syncFits)
  · exact (overFrame fun u raster timing => timing ▸ raster.visibleLineRight).trans (map_visibleLineOf_lines valid)

end Sys2Proof.Machine
end

section
/-! SUPPORT. The line renderer (R140 to R152): the rendered line of each variant, word by word and byte by byte, and
what `write_glyph` leaves in the cell that the renderer reads. -/

namespace Sys2Proof.Machine

/-! ## The two variants -/

/-- The bitmap variant renders with `RENDER_BITMAP` (R140). -/
theorem renderLine_of_bitmap {s : State} {rows : Nat} (content : s.config.val.content = .bitmap rows) (i : Nat) :
    renderLine s i = renderBitmap s rows i := by
  simp only [renderLine, content]

/-- The text variant renders with `RENDER_TEXT` (R140). -/
theorem renderLine_of_text {s : State} {rows glyphH : Nat} {font : List Byte}
    (content : s.config.val.content = .text rows glyphH font) (i : Nat) :
    renderLine s i = renderText s rows glyphH font i := by
  simp only [renderLine, content]

/-- The sizes of the text variant fit 16 bits, and a glyph has a row (R11). -/
theorem text_bounds {c : Config} {rows glyphH : Nat} {font : List Byte}
    (content : c.val.content = .text rows glyphH font) :
    rows < 65536 ∧ 0 < glyphH ∧ c.val.textCols < 65536 := by
  have wf := c.property
  simp only [Params.wf, content, Content.wf, sizeOk, Bool.and_eq_true, decide_eq_true_eq] at wf
  simp only [Params.textCols, glyphW]
  omega

/-- Every text column has its byte in a rendered line (R14). -/
theorem textCols_le (p : Params) : p.textCols ≤ 2 * p.wpl := by
  simp only [Params.textCols, Params.wpl, glyphW, wordBits]
  omega

/-! ## The bitmap line -/

/-- A line of the content is its stored row (R141). -/
theorem renderBitmap_inside {s : State} {rows i : Nat} (inside : i / s.timing.vScale.toNat < rows) :
    renderBitmap s rows i = bitmapRow s (i / s.timing.vScale.toNat) := if_pos inside

/-- A line beyond the content is blank (R149). -/
theorem renderBitmap_beyond {s : State} {rows i : Nat} (beyond : ¬i / s.timing.vScale.toNat < rows) :
    renderBitmap s rows i = blankLine s.config.val := if_neg beyond

theorem bitmapRow_getElem? {s : State} {w : Nat} (inLine : w < s.config.val.wpl) (r : Nat) :
    (bitmapRow s r)[w]? = some (readFb s r w) := by
  simp [bitmapRow, inLine]

theorem blankLine_getElem? {p : Params} {w : Nat} (inLine : w < p.wpl) : (blankLine p)[w]? = some 0#16 := by
  simp [blankLine, inLine]

/-- Settles O25: the line lies in the content or beyond it. -/
theorem bitmapRowsAreCopied : Obligations.BitmapRowsAreCopied := by
  intro s rows i content
  refine ⟨renderLine_length s i, fun w inLine => ?_⟩
  rw [renderLine_of_bitmap content]
  split
  · next inside => rw [renderBitmap_inside inside, bitmapRow_getElem? inLine]
  · next beyond => rw [renderBitmap_beyond beyond, blankLine_getElem? inLine]

/-! ## The text line -/

/-- A line beyond the last text row is blank (R149). -/
theorem renderText_beyond {s : State} {rows glyphH i : Nat} {font : List Byte} (beyond : ¬i / glyphH < rows) :
    renderText s rows glyphH font i = blankLine s.config.val := if_neg beyond

/-- A line of words that pack a sequence of bytes in pairs, the earlier one high, gives each column its byte (R145). -/
theorem lineByte_packed (byte : Nat → Byte) {n c : Nat} (inLine : c < 2 * n) :
    lineByte ((List.range n).map fun w => byte (2 * w) ++ byte (2 * w + 1)) c = byte c := by
  have word : c / 2 < n := by omega
  simp only [lineByte, List.getD_eq_getElem?_getD, List.getElem?_map, List.getElem?_range word, Option.map_some,
    Option.getD_some]
  split
  · next even => rw [BitVec.extractLsb'_append_eq_left, show 2 * (c / 2) = c by omega]
  · next odd => rw [BitVec.extractLsb'_append_eq_right, show 2 * (c / 2) + 1 = c by omega]

theorem lineByte_blankLine (p : Params) (c : Nat) : lineByte (blankLine p) c = 0#8 := by
  have word : (blankLine p).getD (c / 2) 0#16 = 0#16 := by simp [blankLine]
  rw [lineByte, word]
  split <;> rfl

/-- The byte of a column of a rendered text line is that of its cell, blank beyond the last text row (R143, R145). -/
theorem lineByte_renderLine {s : State} {rows glyphH : Nat} {font : List Byte}
    (content : s.config.val.content = .text rows glyphH font) (i : Nat) {c : Nat} (inLine : c < 2 * s.config.val.wpl) :
    lineByte (renderLine s i) c =
      if i / glyphH < rows then cellByte s glyphH font (i / glyphH) c (i % glyphH) else 0#8 := by
  rw [renderLine_of_text content]
  split
  · next inside =>
    rw [renderText, if_pos inside]
    exact lineByte_packed (cellByte s glyphH font (i / glyphH) · (i % glyphH)) inLine
  · next beyond => rw [renderText_beyond beyond, lineByte_blankLine]

/-- In the grid the byte of a cell is its font byte, inverted if the cell is (R144). -/
theorem cellByte_inside {s : State} {c : Nat} (inside : c < s.config.val.textCols) (glyphH : Nat) (font : List Byte)
    (tr fr : Nat) :
    cellByte s glyphH font tr c fr =
      if (readCell s tr c).inv then fontByte glyphH font (readCell s tr c).code fr ^^^ 0xFF#8
      else fontByte glyphH font (readCell s tr c).code fr := if_neg (Nat.not_le.mpr inside)

/-- Beyond the last column the byte is blank (R144). -/
theorem cellByte_beyond {s : State} {c : Nat} (beyond : ¬c < s.config.val.textCols) (glyphH : Nat) (font : List Byte)
    (tr fr : Nat) : cellByte s glyphH font tr c fr = 0#8 := if_pos (Nat.le_of_not_lt beyond)

/-- Settles O26: the byte of the column is that of its cell, and inverting a byte complements it. -/
theorem textCellsArePacked : Obligations.TextCellsArePacked := by
  intro s rows glyphH font i content
  refine ⟨renderLine_length s i, fun c inLine => ?_⟩
  have invert (b : Byte) : b ^^^ 0xFF#8 = ~~~b := BitVec.xor_allOnes
  rw [lineByte_renderLine content i inLine]
  by_cases inside : c < s.config.val.textCols
  · simp only [cellByte_inside inside, inside, and_true, invert]
  · simp only [cellByte_beyond inside, inside, and_false, if_false, ite_self]

/-! ## Beyond the content -/

/-- Settles O28: beyond the content the stored row, or the text row, that the line would show does not exist. -/
theorem blankBeyondContent : Obligations.BlankBeyondContent := by
  intro s i
  constructor
  · intro rows content scale beyond
    rw [render_rl, renderLine_of_bitmap content]
    exact renderBitmap_beyond (Nat.not_lt.mpr ((Nat.le_div_iff_mul_le scale).mpr beyond))
  · intro rows glyphH font content beyond
    obtain ⟨-, glyphRow, -⟩ := text_bounds content
    rw [render_rl, renderLine_of_text content]
    exact renderText_beyond (Nat.not_lt.mpr ((Nat.le_div_iff_mul_le glyphRow).mpr beyond))

/-! ## The written glyph -/

/-- The cell word of `write_glyph` stores the flag and the code it was made of (R64, R231). -/
theorem cellOfWord_glyphWord (inverted : Bool) (code : Byte) :
    cellOfWord (glyphWord inverted code) = { inv := inverted, code := code } := by
  have flag : (glyphWord inverted code).getLsbD 15 = inverted := by cases inverted <;> simp [glyphWord]
  have noFlag : (if inverted then 0x8000#16 else 0#16).extractLsb' 0 8 = 0#8 := by cases inverted <;> rfl
  have low : (glyphWord inverted code).extractLsb' 0 8 = code := by
    rw [glyphWord, BitVec.extractLsb'_or, noFlag, BitVec.zero_or, BitVec.extractLsb'_setWidth_of_le (by decide),
      BitVec.extractLsb'_eq_self]
  rw [cellOfWord, flag, low]

/-- `write_glyph` at a cell of the grid writes that cell and nothing else of the block but the result (R231). -/
theorem writeGlyph_block {h : HostSide} {rows glyphH : Nat} {font : List Byte} {c r : Nat}
    (content : h.block.config.val.content = .text rows glyphH font) (col : c < h.block.config.val.textCols)
    (row : r < rows) (ch : Nat) (inverted : Bool) :
    (writeGlyph ch c r inverted h).block =
      answer (writeCell h.block r c { inv := inverted, code := glyphOf h.block.config.val ch }) none := by
  obtain ⟨rowBound, -, colBound⟩ := text_bounds content
  have rowWord : (BitVec.ofNat 16 r).toNat = r := Nat.mod_eq_of_lt (row.trans rowBound)
  have colWord : (BitVec.ofNat 16 c).toNat = c := Nat.mod_eq_of_lt (col.trans colBound)
  have inGrid : c < h.block.config.val.textCols ∧ r < textRowsOf h.block.config.val :=
    ⟨col, by simpa only [textRowsOf, content] using row⟩
  have inStore : inCell h.block.config.val r c = true := by simp [inCell, content, row, col]
  rw [writeGlyph, if_pos inGrid, issue_cellwr, portWriteCell, rowWord, colWord, if_pos inStore, cellOfWord_glyphWord]

/-- The cell reads back as `write_glyph` wrote it (R64, R231). -/
theorem readCell_writeGlyph {h : HostSide} {rows glyphH : Nat} {font : List Byte} {c r : Nat}
    (content : h.block.config.val.content = .text rows glyphH font) (wf : Memory.wf h.block.cell = true)
    (col : c < h.block.config.val.textCols) (row : r < rows) (ch : Nat) (inverted : Bool) :
    readCell (writeGlyph ch c r inverted h).block r c =
      { inv := inverted, code := glyphOf h.block.config.val ch } := by
  obtain ⟨-, -, colBound⟩ := text_bounds content
  have fits := col.trans colBound
  rw [writeGlyph_block content col row]
  exact (readCell_writeCell _ r c r c _ wf fits fits).trans (if_pos ⟨rfl, rfl⟩)

/-- `write_glyph` keeps the parameters of the block (R12). -/
theorem writeGlyph_config (ch c r : Nat) (inverted : Bool) (h : HostSide) :
    (writeGlyph ch c r inverted h).block.config = h.block.config := by
  unfold writeGlyph
  split
  · exact issue_config h _
  · rfl

/-- A cell of the grid appears in each scanline of its text row (R143 to R145): scanline `r * GLYPH_H + fr` shows its
font row `fr`. -/
theorem lineByte_render_scanline {s : State} {rows glyphH : Nat} {font : List Byte} {c r fr : Nat}
    (content : s.config.val.content = .text rows glyphH font) (col : c < s.config.val.textCols) (row : r < rows)
    (fontRow : fr < glyphH) :
    lineByte (render s (r * glyphH + fr)).rl c =
      if (readCell s r c).inv then fontByte glyphH font (readCell s r c).code fr ^^^ 0xFF#8
      else fontByte glyphH font (readCell s r c).code fr := by
  have textRow : (r * glyphH + fr) / glyphH = r := by
    rw [Nat.mul_comm, Nat.mul_add_div (Nat.zero_lt_of_lt fontRow), Nat.div_eq_of_lt fontRow, Nat.add_zero]
  have inLine := Nat.lt_of_lt_of_le col (textCols_le s.config.val)
  rw [render_rl, lineByte_renderLine content _ inLine, textRow, Nat.mul_add_mod_of_lt fontRow, if_pos row,
    cellByte_inside col]

/-- Settles O27: the scanline shows the cell, which reads back as it was written. -/
theorem writtenGlyphIsRendered : Obligations.WrittenGlyphIsRendered := by
  intro h rows glyphH font ch c r fr inverted content wf col row fontRow
  have config := writeGlyph_config ch c r inverted h
  rw [lineByte_render_scanline (config ▸ content) (config ▸ col) row fontRow,
    readCell_writeGlyph content wf col row]

end Sys2Proof.Machine
end

section
/-! SUPPORT. The clock-out (R160 to R166) and the stream of pixels it shifts out (R167): what a pixel clock and the other
operations do to the bits still to be shifted out, over one operation and over a run. -/

namespace Sys2Proof.Machine

/-! ## One operation of the clock-out -/

/-- Settles O16: the enabled service of event B, whole. -/
theorem evbBeginsTheClockOut : Obligations.EvbBeginsTheClockOut := by
  intro s run pendB noPendA noHold notEmitting
  have enabled := (evbEnabled_iff s).mpr ⟨run, pendB, noPendA, noHold, notEmitting⟩
  rw [exec_evb_next.mpr ⟨enabled, rfl⟩, serviceB_eq]
  cases visible : s.seq.visibleLine <;> simp [answer]

/-- Settles O17: one enabled pass of the write loop, whole. -/
theorem outwPushesTheNextWord : Obligations.OutwPushesTheNextWord := by
  intro s run emitting room
  have enabled := (outwEnabled_iff s).mpr ⟨run, emitting, room⟩
  rw [exec_outw_next.mpr ⟨enabled, rfl⟩, emitWord_eq]
  simp [answer, fifoPush, emitting]

/-- The shifter's half of a pixel clock: reload, then one bit out (R164). -/
theorem exec_pclk_shifter {s t : State} (h : exec .pclk s = .next t) :
    t.shifter = if s.control.run then shiftBit (shiftReload s.shifter) else s.shifter := by
  obtain ⟨stopped, rfl⟩ | ⟨run, m, rfl⟩ := exec_pclk_cases h
  · simp [stopped]
  · simp [run]

/-- Settles O13: the cases of the reload, and the one of a stopped block. -/
theorem pixelClockShiftsOneBit : Obligations.PixelClockShiftsOneBit := by
  intro s
  refine ⟨_, rfl, ?_⟩
  have shifter := exec_pclk_shifter (s := s) rfl
  refine ⟨fun stopped => ?_, fun run bits => ?_, fun w q run empty fifo => ?_, fun run empty fifo => ?_⟩
  · simpa [stopped] using shifter
  all_goals
    rw [shifter, run, if_pos rfl]
  · have notEmpty : s.shifter.shCnt ≠ 0 := Fin.pos_iff_ne_zero.mp bits
    simp [shiftReload, notEmpty, shiftBit, bits]
  · have isEmpty : s.shifter.shCnt = 0 := Fin.ext empty
    simp [shiftReload, fifoPop?, isEmpty, fifo, shiftBit]
  · have isEmpty : s.shifter.shCnt = 0 := Fin.ext empty
    simp [shiftReload, fifoPop?, isEmpty, fifo, shiftBit]

/-! ## The bits still to be shifted out -/

@[simp] theorem streamBits_nil : streamBits [] = [] := rfl

@[simp] theorem streamBits_cons (w : Word) (ws : List Word) : streamBits (w :: ws) = wordBitsMsb w ++ streamBits ws := rfl

@[simp] theorem streamBits_append (ws vs : List Word) : streamBits (ws ++ vs) = streamBits ws ++ streamBits vs := by
  simp [streamBits]

@[simp] theorem wordBitsMsb_length (w : Word) : (wordBitsMsb w).length = 16 := by simp [wordBitsMsb]

@[simp] theorem streamBits_length (ws : List Word) : (streamBits ws).length = 16 * ws.length := by
  induction ws with
  | nil => rfl
  | cons w ws ih => simp [ih]; omega

theorem take_wordBitsMsb (w : Word) {n : Nat} (le : n ≤ 16) :
    (wordBitsMsb w).take n = (List.range n).map fun k => w.getLsbD (15 - k) := by
  rw [wordBitsMsb, ← List.map_take, List.take_range, Nat.min_eq_left le]

/-- The first bit of a word is its bit 15, and the ones after it are the first bits of the word shifted left (R15). -/
theorem take_succ_wordBitsMsb (w : Word) {n : Nat} (le : n ≤ 15) :
    (wordBitsMsb w).take (n + 1) = w.getLsbD 15 :: (wordBitsMsb (w <<< 1)).take n := by
  have shifted (k : Nat) (below : k < n) : w.getLsbD (15 - (k + 1)) = (w <<< 1).getLsbD (15 - k) := by
    have position : 15 - (k + 1) = 15 - k - 1 := by omega
    rw [BitVec.getLsbD_shiftLeft, position]
    simp; omega
  rw [take_wordBitsMsb w (by omega), take_wordBitsMsb _ (by omega), List.range_succ_eq_map, List.map_cons, List.map_map]
  exact congrArg _ (List.map_congr_left fun k below => shifted k (List.mem_range.mp below))

/-- The reload moves a word from the FIFO to the shift register, so the bits to come stay the same (R164). -/
theorem pendingBits_shiftReload (sh : Shifter) : pendingBits (shiftReload sh) = pendingBits sh := by
  obtain ⟨w, q, empty, fifo, reload⟩ | ⟨-, -, reload⟩ | ⟨-, reload⟩ := shiftReload_cases sh
  · simp [reload, pendingBits, empty, fifo]
  all_goals rw [reload]

/-- After the reload test there is a bit to shift exactly when bits are to come at all (R164). -/
theorem shCnt_shiftReload_eq_zero_iff (sh : Shifter) : (shiftReload sh).shCnt = 0 ↔ pendingBits sh = [] := by
  obtain ⟨w, q, empty, fifo, reload⟩ | ⟨empty, fifo, reload⟩ | ⟨notEmpty, reload⟩ := shiftReload_cases sh
  · rw [reload]; simp [← List.length_eq_zero_iff, pendingBits, empty, fifo]
  · rw [reload]; simp [pendingBits, empty, fifo]
  · have bits : sh.shCnt.val ≠ 0 := fun zero => notEmpty (Fin.ext zero)
    rw [reload]; simp [← List.length_eq_zero_iff, pendingBits, notEmpty, bits]

/-- A pixel clock outputs the first of the bits to come, or a dark pixel, and leaves the others (R164). -/
theorem pix_and_pendingBits_after_shift (sh : Shifter) :
    (shiftBit (shiftReload sh)).pix = (pendingBits sh).headD false ∧
      pendingBits (shiftBit (shiftReload sh)) = (pendingBits sh).tail := by
  obtain ⟨bits, shift⟩ | ⟨empty, shift⟩ := shiftBit_cases (shiftReload sh)
  · obtain ⟨n, count⟩ : ∃ n, (shiftReload sh).shCnt.val = n + 1 := Nat.exists_eq_succ_of_ne_zero (by omega)
    have first := take_succ_wordBitsMsb (shiftReload sh).shReg (n := n) (by omega)
    rw [shift, ← pendingBits_shiftReload sh]
    simp [pendingBits, count, first]
  · have isEmpty : (shiftReload sh).shCnt = 0 := Fin.ext empty
    have none_left := (shCnt_shiftReload_eq_zero_iff sh).mp isEmpty
    have none_after := (pendingBits_shiftReload sh).trans none_left
    rw [shift, none_left]
    exact ⟨rfl, none_after⟩

/-- The bits to come of a running block lose their first at a pixel clock, which is the one output. -/
theorem exec_pclk_pendingBits {s t : State} (run : s.control.run = true) (h : exec .pclk s = .next t) :
    t.shifter.pix = (pendingBits s.shifter).headD false ∧ pendingBits t.shifter = (pendingBits s.shifter).tail := by
  rw [exec_pclk_shifter h, run, if_pos rfl]
  exact pix_and_pendingBits_after_shift s.shifter

/-- A word pushed comes after all the bits to come (R74, R162). -/
theorem exec_outw_pendingBits {s t : State} (h : exec .outw s = .next t) :
    pendingBits t.shifter = pendingBits s.shifter ++ wordBitsMsb (readRl s s.out.outIdx.toNat) := by
  obtain ⟨-, rfl⟩ := exec_outw_next.mp h
  rw [emitWord_eq]
  simp [answer, fifoPush, pendingBits]

/-- Besides the pixel clock, `OUTW` and `RESET` only a `START` that starts the block writes the shifter (R50). -/
theorem exec_keeps_shifter {i : Instr} {s t : State} (notReset : i ≠ .reset) (notPclk : i ≠ .pclk) (notOutw : i ≠ .outw)
    (notStarted : ¬(i = .start ∧ s.control.run = false ∧ t.control.run = true)) (h : exec i s = .next t) :
    t.shifter = s.shifter := by
  cases i with
  | reset | pclk | outw => contradiction
  | eva => exact (exec_eva_frame h).shifter
  | evb => obtain ⟨-, rfl⟩ := exec_evb_next.mp h; rw [serviceB_eq]; rfl
  | start => exact (exec_host_frame rfl notStarted h).shifter
  | _ => exact (exec_host_frame rfl (by simp) h).shifter

/-- A stopped block has no bits to shift out, and one that has just started neither (R37, R216). -/
theorem exec_keeps_pendingBits {i : Instr} {s t : State} (inv : Inv s) (notReset : i ≠ .reset) (notPclk : i ≠ .pclk)
    (notOutw : i ≠ .outw) (h : exec i s = .next t) : pendingBits t.shifter = pendingBits s.shifter := by
  by_cases started : i = .start ∧ s.control.run = false ∧ t.control.run = true
  · obtain ⟨rfl, stopped, runs⟩ := started
    obtain ⟨-, -, rfl⟩ := exec_start_started h stopped runs
    rw [(inv.stopped stopped).shifterZero]; rfl
  · rw [exec_keeps_shifter notReset notPclk notOutw started h]

/-! ## The stream of a run -/

/-- What a run shifts out: the bit of its first operation, if that is a pixel clock that shifts, and those of the rest. -/
theorem shiftedBits_cons {i : Instr} {is : List Instr} {s t : State} (h : exec i s = .next t) :
    shiftedBits (i :: is) s = shiftedBits [i] s ++ shiftedBits is t := by
  simp only [shiftedBits, h]
  split <;> rfl

/-- What a run pushes: the word of its first operation, if that is `OUTW`, and those of the rest. -/
theorem pushedWords_cons {i : Instr} {is : List Instr} {s t : State} (h : exec i s = .next t) :
    pushedWords (i :: is) s = pushedWords [i] s ++ pushedWords is t := by
  simp only [pushedWords, h]
  split <;> rfl

/-- A pixel clock shifts out the first of the bits to come, if there is one (R167). -/
theorem exec_pclk_stream {s t : State} (h : exec .pclk s = .next t) :
    shiftedBits [.pclk] s ++ pendingBits t.shifter = pendingBits s.shifter := by
  cases run : s.control.run with
  | false =>
    have kept : t.shifter = s.shifter := by simp [exec_pclk_shifter h, run]
    simp [shiftedBits, h, run, kept]
  | true =>
    obtain ⟨pix, rest⟩ := exec_pclk_pendingBits run h
    simp only [shiftedBits, h, run, true_and, ne_eq, shCnt_shiftReload_eq_zero_iff, pix, rest]
    cases pendingBits s.shifter <;> simp

/-- One operation keeps the order of the stream: what it shifts out comes from its front, what it pushes is added at its
end (R167). -/
theorem exec_stream {i : Instr} {s t : State} (inv : Inv s) (notReset : i ≠ .reset) (h : exec i s = .next t) :
    shiftedBits [i] s ++ pendingBits t.shifter = pendingBits s.shifter ++ streamBits (pushedWords [i] s) := by
  by_cases isPclk : i = .pclk
  · subst isPclk
    simpa [pushedWords, h] using exec_pclk_stream h
  by_cases isOutw : i = .outw
  · subst isOutw
    simp [shiftedBits, pushedWords, h, exec_outw_pendingBits h]
  · simp [shiftedBits, pushedWords, h, isPclk, isOutw, exec_keeps_pendingBits inv notReset isPclk isOutw h]

/-- Settles O47, by induction on the run: the stream of the first operation, then that of the rest. -/
theorem pixelStreamIsInOrder : Obligations.PixelStreamIsInOrder := by
  intro ops s t inv h noReset
  induction ops generalizing s with
  | nil => cases h; simp [shiftedBits, pushedWords]
  | cons i is ih =>
    obtain ⟨u, notReset, first, noResetLater, rest⟩ := runOps_cons_noReset h noReset
    have here := exec_stream inv notReset first
    have later := ih u (exec_keeps_inv inv first) rest noResetLater
    calc shiftedBits (i :: is) s ++ pendingBits t.shifter
        = shiftedBits [i] s ++ (shiftedBits is u ++ pendingBits t.shifter) := by
          rw [shiftedBits_cons (is := is) first, List.append_assoc]
      _ = (shiftedBits [i] s ++ pendingBits u.shifter) ++ streamBits (pushedWords is u) := by
          rw [later, List.append_assoc]
      _ = pendingBits s.shifter ++ streamBits (pushedWords (i :: is) s) := by
          rw [here, pushedWords_cons (is := is) first, streamBits_append, List.append_assoc]

/-! ## A held clock-out -/

/-- How many bits are still to be shifted out (R42, R43). -/
theorem pendingBits_length (sh : Shifter) : (pendingBits sh).length = sh.shCnt.val + 16 * sh.fifo.length := by
  simp [pendingBits]; omega

/-- A clock-out in progress is carried on by `OUTW` alone: every other operation but `RESET` leaves it, and takes at most
the bit of a pixel clock from the stream. -/
theorem exec_of_emitting {i : Instr} {s t : State} (inv : Inv s) (run : s.control.run = true)
    (emitting : s.out.emitting = true) (notReset : i ≠ .reset) (notOutw : i ≠ .outw) (h : exec i s = .next t) :
    t.out = s.out ∧ pendingBits t.shifter = (pendingBits s.shifter).drop (if i == .pclk then 1 else 0) := by
  by_cases isPclk : i = .pclk
  · subst isPclk
    exact ⟨(exec_pclk_frame h).out, by simp [(exec_pclk_pendingBits run h).2]⟩
  · refine ⟨?_, by simp [isPclk, exec_keeps_pendingBits inv notReset isPclk notOutw h]⟩
    cases i with
    | reset | pclk | outw => contradiction
    | eva => exact (exec_eva_frame h).out
    | evb =>
      obtain ⟨enabled, -⟩ := exec_evb_next.mp h
      simp [evbEnabled_iff, emitting] at enabled
    | _ => exact (exec_host_frame rfl (by simp [run]) h).out

/-- While a line is clocked out, a run without `OUTW` and `RESET` takes one bit from the stream at each pixel clock. -/
theorem runOps_of_emitting {ops : List Instr} {s t : State} (inv : Inv s) (run : s.control.run = true)
    (emitting : s.out.emitting = true) (h : runOps ops s = .next t) (noReset : .reset ∉ ops) (noOutw : .outw ∉ ops) :
    t.control.run = true ∧ t.config = s.config ∧ t.out = s.out ∧
      pendingBits t.shifter = (pendingBits s.shifter).drop (ops.count .pclk) := by
  induction ops generalizing s with
  | nil => cases h; exact ⟨run, rfl, rfl, rfl⟩
  | cons i is ih =>
    obtain ⟨u, notReset, first, noResetLater, rest⟩ := runOps_cons_noReset h noReset
    obtain ⟨notOutw, noOutwLater⟩ := not_or.mp (mt List.mem_cons.mpr noOutw)
    obtain ⟨out, bits⟩ := exec_of_emitting inv run emitting notReset (Ne.symm notOutw) first
    obtain ⟨run', config', out', bits'⟩ := ih (exec_keeps_inv inv first) (exec_running_run run notReset first)
      (out ▸ emitting) rest noResetLater noOutwLater
    refine ⟨run', config'.trans (exec_next_sameOwnFields notReset first).config, out'.trans out, ?_⟩
    rw [bits', bits, List.drop_drop, List.count_cons, Nat.add_comm]

/-- Settles O49: after 16 pixel clocks fewer bits are left than fill the FIFO, so it has room. -/
theorem clockOutHoldIsShort : Obligations.ClockOutHoldIsShort := by
  intro ops s t inv run emitting full h noReset noOutw clocks
  obtain ⟨run', config, out, bits⟩ := runOps_of_emitting inv run emitting h noReset noOutw
  have left := congrArg List.length bits
  rw [List.length_drop, pendingBits_length, pendingBits_length, full] at left
  have shCnt := inv.pipe.shCntBelow
  have depth := fifoDepth_pos s.config
  have room : t.shifter.fifo.length < t.config.val.fifoDepth := by rw [config]; omega
  exact ⟨_, exec_outw_next.mpr ⟨(outwEnabled_iff t).mpr ⟨run', out ▸ emitting, room⟩, rfl⟩⟩

end Sys2Proof.Machine
end

section
/-! SUPPORT. The drain of the eager schedule (R313): each service leaves one less to come, so the bound of log entry 16 never
cuts a drain short, and what every service keeps holds at its end. -/

namespace Sys2Proof.Machine

/-- The service a drain performs next is one of the three, and enabled. -/
theorem nextService_eq_some {s : State} {i : Instr} (due : nextService s = some i) :
    (i = .eva ∧ evaEnabled s = true) ∨ (i = .evb ∧ evbEnabled s = true) ∨ (i = .outw ∧ outwEnabled s = true) := by
  unfold nextService at due
  split at due
  · exact .inl ⟨(Option.some.inj due).symm, ‹_›⟩
  split at due
  · exact .inr (.inl ⟨(Option.some.inj due).symm, ‹_›⟩)
  split at due
  · exact .inr (.inr ⟨(Option.some.inj due).symm, ‹_›⟩)
  · cases due

/-- A drain has nothing left to do exactly when no service is enabled. -/
theorem nextService_eq_none_iff {s : State} :
    nextService s = none ↔ evaEnabled s = false ∧ evbEnabled s = false ∧ outwEnabled s = false := by
  unfold nextService
  cases evaEnabled s <;> cases evbEnabled s <;> cases outwEnabled s <;> simp

/-- The services that can still follow without a pixel clock: one for each pending event, and one for each free slot of the
FIFO (R313). -/
def servicesLeft (s : State) : Nat :=
  s.timer.pendA.toNat + s.timer.pendB.toNat + (s.config.val.fifoDepth - s.shifter.fifo.length)

/-- The bound of a drain covers the services left in any state. -/
theorem servicesLeft_le_drainBound (s : State) : servicesLeft s ≤ drainBound s := by
  have a := Bool.toNat_le s.timer.pendA
  have b := Bool.toNat_le s.timer.pendB
  unfold servicesLeft drainBound
  omega

/-- The service due completes and leaves fewer to come. -/
theorem exec_service {s : State} {i : Instr} (due : nextService s = some i) :
    ∃ t, exec i s = .next t ∧ servicesLeft t < servicesLeft s := by
  obtain ⟨rfl, enabled⟩ | ⟨rfl, enabled⟩ | ⟨rfl, enabled⟩ := nextService_eq_some due
  · obtain ⟨-, pendA, -⟩ := (evaEnabled_iff s).mp enabled
    have served := exec_eva_next.mpr ⟨enabled, rfl⟩
    refine ⟨_, served, ?_⟩
    obtain ⟨-, rl, whole, -⟩ := exec_eva_cases served
    rw [whole]
    simp [servicesLeft, pendA]
  · obtain ⟨-, pendB, -⟩ := (evbEnabled_iff s).mp enabled
    refine ⟨_, exec_evb_next.mpr ⟨enabled, rfl⟩, ?_⟩
    rw [serviceB_eq]
    simp [servicesLeft, pendB]
  · obtain ⟨-, -, room⟩ := (outwEnabled_iff s).mp enabled
    refine ⟨_, exec_outw_next.mpr ⟨enabled, rfl⟩, ?_⟩
    rw [emitWord_eq]
    simp [servicesLeft, fifoPush]
    omega

/-- Services are performed until none is enabled, and what each of them keeps is kept. -/
theorem runOps_drainOps {kept : State → Prop}
    (keeps : ∀ {i s t}, nextService s = some i → exec i s = .next t → kept s → kept t) {k : Nat} {s : State}
    (enough : servicesLeft s ≤ k) (start : kept s) :
    ∃ t, runOps (drainOps k s) s = .next t ∧ nextService t = none ∧ kept t := by
  cases due : nextService s with
  | none =>
    have nothing : drainOps k s = [] := by cases k <;> simp [drainOps, due]
    exact ⟨s, by rw [nothing]; rfl, due, start⟩
  | some i =>
    obtain ⟨u, served, fewer⟩ := exec_service due
    cases k with
    | zero => omega
    | succ k =>
      obtain ⟨t, rest, ended, keptEnd⟩ := runOps_drainOps keeps (k := k) (by omega) (keeps due served start)
      have first : drainOps (k + 1) s = i :: drainOps k u := by simp [drainOps, due, served]
      exact ⟨t, by rw [first]; exact runOps_cons_next.mpr ⟨u, served, rest⟩, ended, keptEnd⟩

/-- A drain ends with no service enabled, and keeps what every service keeps (R313). -/
theorem drain_ends {kept : State → Prop}
    (keeps : ∀ {i s t}, nextService s = some i → exec i s = .next t → kept s → kept t) {s : State} (start : kept s) :
    ∃ t, drain s = .next t ∧ nextService t = none ∧ kept t :=
  runOps_drainOps keeps (servicesLeft_le_drainBound s) start

end Sys2Proof.Machine
end

section
/-! SUPPORT. The pixels of a line in place (R168, R307): under the eager schedule the bits on their way to the output are at
every `HCNT` exactly the pixels of the line buffer that are still to be shown. -/

namespace Sys2Proof.Machine

/-! ## The bits on their way, and the pixels still to be shown -/

/-- The words of the line buffer that the clock-out in progress has still to push (R161). -/
def unpushedWords (s : State) : List Word :=
  if s.out.emitting then
    (List.range' s.out.outIdx.toNat (s.config.val.wpl - s.out.outIdx.toNat)).map (readRl s)
  else []

/-- All the bits of the line on their way to the output: those in the shifter, then those of the words to be pushed. -/
def lineBits (s : State) : List Bool := pendingBits s.shifter ++ streamBits (unpushedWords s)

/-- The pixels of the line buffer from column `k` to the end of the line (R62, R68). -/
def pixelsFrom (s : State) (k : Nat) : List Bool :=
  (List.range' k (16 * s.config.val.wpl - k)).map (lineBufferPixel s)

/-- The column the next pixel clock shows: it counts from data start on a visible line, once the clock-out has begun, and
is past the end of the line otherwise (R168). -/
def nextPixel (s : State) : Nat :=
  if s.seq.visibleLine.isSome = true ∧ s.timing.hDataStart.toNat ≤ s.timer.hcnt.toNat ∧ s.timer.pendB = false then
    s.timer.hcnt.toNat - s.timing.hDataStart.toNat
  else 16 * s.config.val.wpl

theorem streamBits_eq_nil_iff {ws : List Word} : streamBits ws = [] ↔ ws = [] := by
  simp [← List.length_eq_zero_iff]

theorem unpushedWords_idle {s : State} (idle : s.out.emitting = false) : unpushedWords s = [] := by
  simp [unpushedWords, idle]

theorem readRl_congr {s t : State} (rl : t.rl = s.rl) (draw : t.draw = s.draw) : readRl t = readRl s := by
  funext x
  simp only [readRl, rl, draw]

theorem unpushedWords_congr {s t : State} (out : t.out = s.out) (rl : t.rl = s.rl) (draw : t.draw = s.draw)
    (config : t.config = s.config) : unpushedWords t = unpushedWords s := by
  simp only [unpushedWords, readRl_congr rl draw, out, config]

theorem pixelsFrom_congr {s t : State} (rl : t.rl = s.rl) (draw : t.draw = s.draw) (config : t.config = s.config) :
    pixelsFrom t = pixelsFrom s := by
  have pixels : lineBufferPixel t = lineBufferPixel s := by
    funext k
    simp only [lineBufferPixel, readRl_congr rl draw]
  funext k
  simp only [pixelsFrom, pixels, config]

theorem pixelsFrom_of_ge {s : State} {k : Nat} (past : 16 * s.config.val.wpl ≤ k) : pixelsFrom s k = [] := by
  simp [pixelsFrom, Nat.sub_eq_zero_of_le past]

theorem pixelsFrom_of_lt {s : State} {k : Nat} (inLine : k < 16 * s.config.val.wpl) :
    pixelsFrom s k = lineBufferPixel s k :: pixelsFrom s (k + 1) := by
  obtain ⟨n, count⟩ : ∃ n, 16 * s.config.val.wpl - k = n + 1 := Nat.exists_eq_succ_of_ne_zero (by omega)
  have fewer : 16 * s.config.val.wpl - (k + 1) = n := by omega
  simp [pixelsFrom, count, fewer, List.range'_succ]

theorem pixelsFrom_tail (s : State) (k : Nat) : (pixelsFrom s k).tail = pixelsFrom s (k + 1) := by
  by_cases inLine : k < 16 * s.config.val.wpl
  · rw [pixelsFrom_of_lt inLine, List.tail_cons]
  · rw [pixelsFrom_of_ge (by omega), pixelsFrom_of_ge (by omega), List.tail_nil]

theorem pixelsFrom_head_iff {s : State} {k : Nat} :
    (pixelsFrom s k).headD false = true ↔ k < 16 * s.config.val.wpl ∧ lineBufferPixel s k = true := by
  by_cases inLine : k < 16 * s.config.val.wpl
  · simp [pixelsFrom_of_lt inLine, inLine]
  · simp [pixelsFrom_of_ge (Nat.le_of_not_lt inLine), inLine]

/-- A word of the line buffer is its sixteen pixels, left to right (R62). -/
theorem wordBitsMsb_readRl (s : State) (x : Nat) :
    wordBitsMsb (readRl s x) = (List.range' (16 * x) 16).map (lineBufferPixel s) := by
  rw [List.range'_eq_map_range, List.map_map]
  refine List.map_congr_left fun k below => ?_
  have inWord := List.mem_range.mp below
  have word : pixelWord (16 * x + k) = x := by simp only [pixelWord]; omega
  have bit : pixelBit (16 * x + k) = 15 - k := by simp only [pixelBit]; omega
  simp only [Function.comp_apply, lineBufferPixel, word, bit]

/-- The stream of successive words of the line buffer is the run of their pixels. -/
theorem streamBits_readRl (s : State) (x n : Nat) :
    streamBits ((List.range' x n).map (readRl s)) = (List.range' (16 * x) (16 * n)).map (lineBufferPixel s) := by
  induction n generalizing x with
  | zero => rfl
  | succ n ih =>
    have count : 16 * (n + 1) = 16 + 16 * n := by omega
    have next : 16 * (x + 1) = 16 * x + 1 * 16 := by omega
    rw [List.range'_succ, List.map_cons, streamBits_cons, wordBitsMsb_readRl, ih, count, next, ← List.range'_append,
      List.map_append]

/-- `OUTW` takes the first of the words to be pushed (R161). -/
theorem unpushedWords_emitWord {s : State} (emitting : s.out.emitting = true)
    (below : s.out.outIdx.toNat < s.config.val.wpl) :
    unpushedWords s = readRl s s.out.outIdx.toNat :: unpushedWords (answer (emitWord s) none) := by
  obtain ⟨n, count⟩ : ∃ n, s.config.val.wpl - s.out.outIdx.toNat = n + 1 := Nat.exists_eq_succ_of_ne_zero (by omega)
  have first : unpushedWords s =
      readRl s s.out.outIdx.toNat :: (List.range' (s.out.outIdx.toNat + 1) n).map (readRl s) := by
    simp [unpushedWords, emitting, count, List.range'_succ]
  rw [first, emitWord_eq]
  by_cases last : s.out.outIdx.toNat + 1 = s.config.val.wpl
  · obtain rfl : n = 0 := by omega
    simp [unpushedWords, last]
  · have bound := (wpl_bounds s.config).2
    have next : (s.out.outIdx.toNat + 1) % 65536 = s.out.outIdx.toNat + 1 := Nat.mod_eq_of_lt (by omega)
    have fewer : s.config.val.wpl - (s.out.outIdx.toNat + 1) = n := by omega
    simp [unpushedWords, emitting, last, next, fewer, readRl, answer]

/-- `OUTW` moves a word from the line buffer to the FIFO; the bits on their way stay the same. -/
theorem exec_outw_lineBits {s t : State} (below : s.out.emitting = true → s.out.outIdx.toNat < s.config.val.wpl)
    (h : exec .outw s = .next t) : lineBits t = lineBits s := by
  have pushed := exec_outw_pendingBits h
  obtain ⟨enabled, rfl⟩ := exec_outw_next.mp h
  obtain ⟨-, emitting, -⟩ := (outwEnabled_iff s).mp enabled
  rw [lineBits, lineBits, pushed, unpushedWords_emitWord emitting (below emitting), streamBits_cons, List.append_assoc]

/-- A pixel clock shows the first of the bits on their way, if the shifter does not run dry in a clock-out. -/
theorem exec_pclk_lineBits {s t : State} (run : s.control.run = true)
    (fed : s.out.emitting = true → pendingBits s.shifter ≠ []) (h : exec .pclk s = .next t) :
    t.shifter.pix = (lineBits s).headD false ∧ lineBits t = (lineBits s).tail := by
  obtain ⟨pix, rest⟩ := exec_pclk_pendingBits run h
  have frame := exec_pclk_frame h
  have own := exec_next_sameOwnFields (by simp) h
  have unpushed := unpushedWords_congr frame.out frame.rl own.draw own.config
  rw [lineBits, lineBits, pix, rest, unpushed]
  cases bits : pendingBits s.shifter with
  | cons b bs => exact ⟨rfl, rfl⟩
  | nil =>
    have idle : s.out.emitting = false := Bool.eq_false_iff.mpr fun emitting => fed emitting bits
    simp [unpushedWords_idle idle]

/-! ## The column of the next pixel -/

theorem nextPixel_before {s : State} (before : s.timer.hcnt.toNat < s.timing.hDataStart.toNat) :
    nextPixel s = 16 * s.config.val.wpl := if_neg (by omega)

theorem nextPixel_pendB {s : State} (pendB : s.timer.pendB = true) : nextPixel s = 16 * s.config.val.wpl :=
  if_neg (by simp [pendB])

theorem nextPixel_hidden {s : State} (hidden : s.seq.visibleLine = none) : nextPixel s = 16 * s.config.val.wpl :=
  if_neg (by simp [hidden])

theorem nextPixel_visible {s : State} (visible : s.seq.visibleLine.isSome = true)
    (after : s.timing.hDataStart.toNat ≤ s.timer.hcnt.toNat) (noPendB : s.timer.pendB = false) :
    nextPixel s = s.timer.hcnt.toNat - s.timing.hDataStart.toNat := if_pos ⟨visible, after, noPendB⟩

theorem nextPixel_congr {s t : State} (timing : t.timing = s.timing) (seq : t.seq = s.seq) (timer : t.timer = s.timer)
    (config : t.config = s.config) : nextPixel t = nextPixel s := by
  simp only [nextPixel, timing, seq, timer, config]

/-- When the clock-out of a line begins, all its pixels are on their way. -/
theorem bitsInPlace_of_begin {s : State} (out : s.out = { emitting := true, outIdx := 0#16 })
    (empty : pendingBits s.shifter = []) (column : nextPixel s = 0) : lineBits s = pixelsFrom s (nextPixel s) := by
  simp [lineBits, empty, unpushedWords, out, streamBits_readRl, column, pixelsFrom]

/-- Past the last pixel, between two clock-outs and with an empty shifter, no bit is on its way. -/
theorem bitsInPlace_of_past {s : State} (idle : s.out.emitting = false) (empty : pendingBits s.shifter = [])
    (past : nextPixel s = 16 * s.config.val.wpl) : lineBits s = pixelsFrom s (nextPixel s) := by
  simp [lineBits, empty, unpushedWords_idle idle, pixelsFrom_of_ge past.ge]

/-! ## The invariant of the eager schedule -/

/-- The running block is on schedule: an event waits only at the `HCNT` that raised it, and the bits on their way are the
pixels still to be shown. The parameters `c` and the registers `tm` meet the conditions of R307. -/
structure InPlace (c : Config) (tm : FrameTiming) (s : State) : Prop where
  run : s.control.run = true
  config : s.config = c
  timing : s.timing = tm
  dataStart : 1 ≤ s.timing.hDataStart.toNat
  fits : Fits s
  hcntBelow : s.timer.hcnt.toNat < s.timing.hTotal.toNat
  pendAAtWrap : s.timer.pendA = true → s.timer.hcnt.toNat = 0
  pendBAtDataStart : s.timer.pendB = true → s.timer.hcnt.toNat = s.timing.hDataStart.toNat
  outIdxBelow : s.out.emitting = true → s.out.outIdx.toNat < s.config.val.wpl
  bitsInPlace : lineBits s = pixelsFrom s (nextPixel s)

/-- The block is on schedule, and a drain has nothing left to do but for a word that the FIFO has no room for. -/
structure Drained (c : Config) (tm : FrameTiming) (s : State) : Prop extends InPlace c tm s where
  noPendA : s.timer.pendA = false
  noPendB : s.timer.pendB = false
  fifoFull : s.out.emitting = true → s.config.val.fifoDepth ≤ s.shifter.fifo.length

section
variable {c : Config} {tm : FrameTiming} {s t : State}

/-- Past the last pixel nothing is on its way: the clock-out is over and the shifter empty. -/
theorem InPlace.idle_of_past (inPlace : InPlace c tm s) (past : nextPixel s = 16 * s.config.val.wpl) :
    s.out.emitting = false ∧ pendingBits s.shifter = [] := by
  have nothing := inPlace.bitsInPlace
  rw [pixelsFrom_of_ge past.ge, lineBits, List.append_eq_nil_iff, streamBits_eq_nil_iff] at nothing
  obtain ⟨empty, pushed⟩ := nothing
  refine ⟨Bool.eq_false_iff.mpr fun emitting => ?_, empty⟩
  have below := inPlace.outIdxBelow emitting
  simp [unpushedWords, emitting] at pushed
  omega

/-- Event A waits in front of data start, so it finds the clock-out of its line over (R307). -/
theorem InPlace.idle_of_pendA (inPlace : InPlace c tm s) (pendA : s.timer.pendA = true) :
    s.out.emitting = false ∧ pendingBits s.shifter = [] := by
  have wrapped := inPlace.pendAAtWrap pendA
  have dataStart := inPlace.dataStart
  exact inPlace.idle_of_past (nextPixel_before (by omega))

/-- While event B waits, no clock-out has begun. -/
theorem InPlace.idle_of_pendB (inPlace : InPlace c tm s) (pendB : s.timer.pendB = true) :
    s.out.emitting = false ∧ pendingBits s.shifter = [] :=
  inPlace.idle_of_past (nextPixel_pendB pendB)

/-! ## The services keep it -/

/-- Event A finds nothing on its way and leaves nothing, so the line buffer may be rendered anew (R120, R308). -/
theorem InPlace.after_eva (inPlace : InPlace c tm s) (h : exec .eva s = .next t) : InPlace c tm t := by
  obtain ⟨enabled, rl, rfl, -⟩ := exec_eva_cases h
  obtain ⟨-, pendA, -, -⟩ := (evaEnabled_iff s).mp enabled
  obtain ⟨idle, empty⟩ := inPlace.idle_of_pendA pendA
  have wrapped := inPlace.pendAAtWrap pendA
  have dataStart := inPlace.dataStart
  have before : s.timer.hcnt.toNat < s.timing.hDataStart.toNat := by omega
  exact { inPlace with
    pendAAtWrap := nofun
    bitsInPlace := bitsInPlace_of_past idle empty (nextPixel_before before) }

/-- At data start of a visible line event B sets all the pixels of the line on their way (R160, R168). -/
theorem InPlace.after_evb (inPlace : InPlace c tm s) (h : exec .evb s = .next t) : InPlace c tm t := by
  obtain ⟨enabled, rfl⟩ := exec_evb_next.mp h
  obtain ⟨-, pendB, -⟩ := (evbEnabled_iff s).mp enabled
  obtain ⟨idle, empty⟩ := inPlace.idle_of_pendB pendB
  have atDataStart := inPlace.pendBAtDataStart pendB
  rw [serviceB_eq]
  cases visible : s.seq.visibleLine.isSome with
  | true =>
    have column := (nextPixel_visible (s := answer { s with timer := { s.timer with pendB := false } } none) visible
      atDataStart.ge rfl).trans (Nat.sub_eq_zero_of_le atDataStart.le)
    exact { inPlace with
      pendBAtDataStart := nofun
      outIdxBelow := fun _ => (wpl_bounds s.config).1
      bitsInPlace := bitsInPlace_of_begin rfl empty column }
  | false =>
    have hidden : s.seq.visibleLine = none := Option.not_isSome_iff_eq_none.mp (by simp [visible])
    exact { inPlace with
      pendBAtDataStart := nofun
      bitsInPlace := bitsInPlace_of_past idle empty (nextPixel_hidden hidden) }

/-- `OUTW` carries a word on without changing the order of the bits (R161). -/
theorem InPlace.after_outw (inPlace : InPlace c tm s) (h : exec .outw s = .next t) : InPlace c tm t := by
  have bits := exec_outw_lineBits inPlace.outIdxBelow h
  obtain ⟨enabled, rfl⟩ := exec_outw_next.mp h
  obtain ⟨-, emitting, -⟩ := (outwEnabled_iff s).mp enabled
  have below := inPlace.outIdxBelow emitting
  rw [emitWord_eq] at bits ⊢
  refine { inPlace with outIdxBelow := ?_, bitsInPlace := bits.trans inPlace.bitsInPlace }
  by_cases last : s.out.outIdx.toNat + 1 = s.config.val.wpl
  · simp [last]
  · have next : (BitVec.ofNat 16 (s.out.outIdx.toNat + 1)).toNat < s.config.val.wpl :=
      (Nat.mod_le _ _).trans_lt (by omega)
    simpa [last] using fun _ => next

/-- Every service of a drain keeps the block on schedule. -/
theorem InPlace.after_service {i : Instr} (due : nextService s = some i) (h : exec i s = .next t)
    (inPlace : InPlace c tm s) : InPlace c tm t := by
  obtain ⟨rfl, -⟩ | ⟨rfl, -⟩ | ⟨rfl, -⟩ := nextService_eq_some due
  · exact inPlace.after_eva h
  · exact inPlace.after_evb h
  · exact inPlace.after_outw h

/-- When no service is enabled and `HOLD` is clear, no event waits (R264). -/
theorem InPlace.drained (inPlace : InPlace c tm s) (noHold : s.control.hold = false) (ended : nextService s = none) :
    Drained c tm s := by
  obtain ⟨noEva, noEvb, noOutw⟩ := nextService_eq_none_iff.mp ended
  have run := inPlace.run
  have noPendA : s.timer.pendA = false := Bool.eq_false_iff.mpr fun pendA => by
    simp [evaEnabled, run, noHold, pendA, (inPlace.idle_of_pendA pendA).1] at noEva
  have noPendB : s.timer.pendB = false := Bool.eq_false_iff.mpr fun pendB => by
    simp [evbEnabled, run, noHold, noPendA, pendB, (inPlace.idle_of_pendB pendB).1] at noEvb
  have fifoFull (emitting : s.out.emitting = true) : s.config.val.fifoDepth ≤ s.shifter.fifo.length := by
    by_contra room
    rw [(outwEnabled_iff s).mpr ⟨run, emitting, Nat.lt_of_not_le room⟩] at noOutw
    cases noOutw
  exact { inPlace with noPendA, noPendB, fifoFull }

/-- A drain with `HOLD` clear serves every event that waits. -/
theorem InPlace.after_drain (inPlace : InPlace c tm s) (noHold : s.control.hold = false) (h : drain s = .next t) :
    Drained c tm t ∧ t.control.hold = false := by
  have keeps {i : Instr} {s t : State} (due : nextService s = some i) (served : exec i s = .next t)
      (kept : InPlace c tm s ∧ s.control.hold = false) : InPlace c tm t ∧ t.control.hold = false := by
    refine ⟨kept.1.after_service due served, ?_⟩
    have control : t.control = s.control := by
      obtain ⟨rfl, -⟩ | ⟨rfl, -⟩ | ⟨rfl, -⟩ := nextService_eq_some due <;>
        exact exec_keeps_control (by simp) (by simp) (by simp) (by simp) served
    rw [control, kept.2]
  obtain ⟨u, drained, ended, inPlace', noHold'⟩ := drain_ends keeps ⟨inPlace, noHold⟩
  obtain rfl : u = t := Host.Outcome.next.inj (drained.symm.trans h)
  exact ⟨inPlace'.drained noHold' ended, noHold'⟩

/-! ## The pixel clock and the host keep it -/

/-- A clock-out that waits for room in the FIFO has bits in it. -/
theorem Drained.fed (drained : Drained c tm s) (emitting : s.out.emitting = true) : pendingBits s.shifter ≠ [] := by
  have depth := fifoDepth_pos s.config
  have full := drained.fifoFull emitting
  rw [← List.length_pos_iff, pendingBits_length]
  omega

/-- `HCNT` after the wrap is 0, and otherwise one more than before. -/
theorem nextHcnt_cases (s : State) :
    (nextHcnt s = 0 ∧ s.timer.hcnt.toNat + 1 = s.timing.hTotal.toNat) ∨ nextHcnt s = s.timer.hcnt.toNat + 1 := by
  unfold nextHcnt; split
  · exact .inl ⟨rfl, ‹_›⟩
  · exact .inr rfl

/-- `HCNT` of a running block after a pixel clock (R201). -/
theorem exec_pclk_hcnt (run : s.control.run = true) (below : s.timer.hcnt.toNat < s.timing.hTotal.toNat)
    (h : exec .pclk s = .next t) : t.timer.hcnt.toNat = nextHcnt s := by
  obtain ⟨stopped, -⟩ | ⟨-, m, rfl⟩ := exec_pclk_cases h
  · simp [run] at stopped
  · exact nextHcnt_toNat below

/-- A pixel clock moves the next pixel on by one column, or both columns lie past the end of the line. -/
theorem Drained.nextPixel_pclk (drained : Drained c tm s) (h : exec .pclk s = .next t) :
    nextPixel t = nextPixel s + 1 ∨
      (16 * s.config.val.wpl ≤ nextPixel t ∧ 16 * s.config.val.wpl ≤ nextPixel s + 1) := by
  obtain ⟨stopped, -⟩ | ⟨-, m, rfl⟩ := exec_pclk_cases h
  · simp [drained.run] at stopped
  have hcnt := nextHcnt_toNat drained.hcntBelow
  have step := nextHcnt_cases s
  have dataStart := drained.dataStart
  have fits := drained.fits
  unfold Fits at fits
  cases visible : s.seq.visibleLine.isSome with
  | false => simp [nextPixel, visible]
  | true =>
    simp only [nextPixel, visible, hcnt, drained.noPendB, Bool.false_or, decide_eq_false_iff_not, true_and, and_true]
    split_ifs <;> omega

/-- A pixel clock takes one bit off and moves on by one column, so the rest stays in place; the events it raises stand at the
`HCNT` that raises them (R164, R201). -/
theorem Drained.after_pclk (drained : Drained c tm s) (h : exec .pclk s = .next t) : InPlace c tm t := by
  obtain ⟨-, shifted⟩ := exec_pclk_lineBits drained.run drained.fed h
  have column := drained.nextPixel_pclk h
  have bits : lineBits t = pixelsFrom s (nextPixel t) := by
    rw [shifted, drained.bitsInPlace, pixelsFrom_tail]
    obtain next | ⟨past, past'⟩ := column
    · rw [next]
    · rw [pixelsFrom_of_ge past, pixelsFrom_of_ge past']
  obtain ⟨stopped, -⟩ | ⟨-, m, rfl⟩ := exec_pclk_cases h
  · simp [drained.run] at stopped
  have hcnt := nextHcnt_toNat drained.hcntBelow
  exact { drained.toInPlace with
    hcntBelow := hcnt.trans_lt (nextHcnt_lt drained.hcntBelow)
    pendAAtWrap := by simp [drained.noPendA, hcnt, -BitVec.toNat_ofNat]
    pendBAtDataStart := by simp [drained.noPendB, hcnt, -BitVec.toNat_ofNat]
    bitsInPlace := bits }

/-- The host writes nothing that the schedule of a line depends on (R50). -/
theorem Drained.after_host {i : Instr} (drained : Drained c tm s) (host : i.agent = .host) (h : exec i s = .next t) :
    Drained c tm t := by
  have notReset : i ≠ .reset := by rintro rfl; cases host
  have kept := exec_host_frame host (by simp [drained.run]) h
  have own := exec_next_sameOwnFields notReset h
  have timing := exec_running_timing drained.run notReset h
  have bits : lineBits t = pixelsFrom t (nextPixel t) := by
    rw [lineBits, kept.shifter, unpushedWords_congr kept.out kept.rl own.draw own.config,
      pixelsFrom_congr kept.rl own.draw own.config, nextPixel_congr timing kept.seq kept.timer own.config]
    exact drained.bitsInPlace
  exact {
    run := kept.run.trans drained.run
    config := own.config.trans drained.config
    timing := timing.trans drained.timing
    dataStart := by rw [timing]; exact drained.dataStart
    fits := by unfold Fits; rw [timing, own.config]; exact drained.fits
    hcntBelow := by rw [timing, kept.timer]; exact drained.hcntBelow
    pendAAtWrap := by rw [kept.timer]; exact drained.pendAAtWrap
    pendBAtDataStart := by rw [timing, kept.timer]; exact drained.pendBAtDataStart
    outIdxBelow := by rw [kept.out, own.config]; exact drained.outIdxBelow
    bitsInPlace := bits
    noPendA := by rw [kept.timer]; exact drained.noPendA
    noPendB := by rw [kept.timer]; exact drained.noPendB
    fifoFull := by rw [kept.out, kept.shifter, own.config]; exact drained.fifoFull }

/-! ## Runs under the eager schedule -/

/-- The start state is on schedule: nothing waits, nothing is on its way, no line is visible (R216). -/
theorem drained_startState (s : State) (r : Option HostResult) (dataStart : 1 ≤ s.timing.hDataStart.toNat)
    (fits : Fits s) : Drained s.config s.timing (answer (startState s) r) where
  run := rfl
  config := rfl
  timing := rfl
  dataStart := dataStart
  fits := fits
  hcntBelow := by unfold Fits at fits; simp; omega
  pendAAtWrap := nofun
  pendBAtDataStart := nofun
  outIdxBelow := nofun
  bitsInPlace := bitsInPlace_of_past rfl rfl (nextPixel_hidden rfl)
  noPendA := rfl
  noPendB := rfl
  fifoFull := nofun

/-- In a list that is never held at a pixel clock, `HOLD` is clear wherever a drain begins, and the rest of the list is never
held for the `HOLD` that its first operation leaves (R218, R219, R313). -/
theorem hold_of_neverHeldAtPclk {i : Instr} {is : List Instr} (never : neverHeldAtPclk s.control.hold (i :: is) = true)
    (notReset : i ≠ .reset) (h : exec i s = .next t) :
    (opensDrain i = true → t.control.hold = false) ∧ neverHeldAtPclk t.control.hold is = true := by
  by_cases isEnter : i = .csenter
  · subst isEnter; cases h; exact ⟨nofun, never⟩
  by_cases isExit : i = .csexit
  · subst isExit; cases h; exact ⟨fun _ => rfl, never⟩
  have kept : t.control.hold = s.control.hold := by
    obtain ⟨-, -, -, -, holdWrites⟩ := runAndErrorAreSticky i s t h
    by_contra changed
    simpa [isEnter, isExit, notReset] using holdWrites changed
  rw [kept]
  cases i with
  | pclk => simpa [neverHeldAtPclk, opensDrain] using never
  | csenter | csexit | reset => contradiction
  | _ => exact ⟨nofun, never⟩

/-- One operation of the timer or the host with its drain keeps the block on schedule. -/
theorem Drained.after_eagerStep {i : Instr} {is : List Instr} (drained : Drained c tm s)
    (agent : i.agent = .ht ∨ i.agent = .host) (never : neverHeldAtPclk s.control.hold (i :: is) = true)
    (h : eagerStep i s = .next t) : Drained c tm t ∧ neverHeldAtPclk t.control.hold is = true := by
  obtain ⟨u, first, services⟩ := eagerStep_next.mp h
  have notReset : i ≠ .reset := by rintro rfl; simp [Instr.agent] at agent
  obtain ⟨noHold, neverLater⟩ := hold_of_neverHeldAtPclk never notReset first
  cases opens : opensDrain i with
  | false =>
    simp only [servicesAfter, opens] at services
    cases services
    have host : i.agent = .host := agent.resolve_left fun timer => by cases i <;> simp [Instr.agent, opensDrain] at *
    exact ⟨drained.after_host host first, neverLater⟩
  | true =>
    simp only [servicesAfter, opens, if_true] at services
    have inPlace : InPlace c tm u := by
      obtain timer | host := agent
      · obtain rfl : i = .pclk := by cases i <;> simp [Instr.agent] at timer ⊢
        exact drained.after_pclk first
      · exact (drained.after_host host first).toInPlace
    obtain ⟨drained', noHold'⟩ := inPlace.after_drain (noHold opens) services
    rw [noHold opens] at neverLater
    exact ⟨drained', noHold' ▸ neverLater⟩

/-- The block stays on schedule over every run of the timer and the host (R314). -/
theorem Drained.after_eagerRun {ops : List Instr} (drained : Drained c tm s)
    (agents : ∀ i ∈ ops, i.agent = .ht ∨ i.agent = .host) (never : neverHeldAtPclk s.control.hold ops = true) (h : eagerRun ops s = .next t) : Drained c tm t := by
  induction ops generalizing s with
  | nil => cases h; exact drained
  | cons i is ih =>
    obtain ⟨u, first, rest⟩ := eagerRun_cons_next.mp h
    obtain ⟨agent, agentsLater⟩ := List.forall_mem_cons.mp agents
    obtain ⟨drained', neverLater⟩ := drained.after_eagerStep agent never first
    exact ih drained' agentsLater neverLater rest

/-- The sample of a pixel clock is the pixel of the next column, if that is one of the line (R168). -/
theorem Drained.pix_pclk (drained : Drained c tm s) (h : exec .pclk s = .next t) :
    t.shifter.pix = true ↔ nextPixel s < 16 * s.config.val.wpl ∧ lineBufferPixel s (nextPixel s) = true := by
  obtain ⟨pix, -⟩ := exec_pclk_lineBits drained.run drained.fed h
  rw [pix, drained.bitsInPlace, pixelsFrom_head_iff]

/-- The next pixel is one of the line exactly when `HCNT` after the pixel clock that shows it lies in the data of a visible
line (R307). -/
theorem Drained.nextPixel_lt_iff (drained : Drained c tm s) :
    nextPixel s < 16 * s.config.val.wpl ↔
      s.seq.visibleLine.isSome = true ∧ s.timing.hDataStart.toNat + 1 ≤ nextHcnt s ∧
        nextHcnt s ≤ s.timing.hDataStart.toNat + 16 * s.config.val.wpl := by
  have step := nextHcnt_cases s
  have dataStart := drained.dataStart
  have fits := drained.fits
  unfold Fits at fits
  cases visible : s.seq.visibleLine.isSome with
  | false => simp [nextPixel, visible]
  | true =>
    simp only [nextPixel, visible, drained.noPendB, true_and, and_true]
    split_ifs <;> omega

/-- On a line being shown, the next pixel is the one R307 puts at `HCNT` after the pixel clock. -/
theorem Drained.nextPixel_eq (drained : Drained c tm s) (shown : nextPixel s < 16 * s.config.val.wpl) :
    nextPixel s = nextHcnt s - s.timing.hDataStart.toNat - 1 := by
  obtain ⟨visible, fromDataStart, -⟩ := drained.nextPixel_lt_iff.mp shown
  have step := nextHcnt_cases s
  rw [nextPixel_visible visible (by omega) drained.noPendB]
  omega

end

/-- Settles O53: the run keeps the block on schedule, and on schedule the pixel clock shows the column in its place. -/
theorem pixelsAppearInPlace : Obligations.PixelsAppearInPlace := by
  intro ops s s0 t u start stopped started dataStart fits agents never eager clock
  obtain ⟨-, -, rfl⟩ := exec_start_started start stopped started
  have drained := (drained_startState s _ dataStart fits).after_eagerRun agents never eager
  have lit : (sample u).pix = true ↔ _ := drained.pix_pclk clock
  rw [lit, exec_pclk_hcnt drained.run drained.hcntBelow clock, ← drained.timing, ← drained.config,
    and_congr_right fun shown => by rw [drained.nextPixel_eq shown], drained.nextPixel_lt_iff, and_assoc, and_assoc]

end Sys2Proof.Machine
end

section
/-! SUPPORT. The host port of the content store (R180 to R185): what each of its four operations answers, when an element is
in range, the cell word, and what a read returns after a write. -/

namespace Sys2Proof.Machine

/-! ## The four operations -/

theorem exec_fbwr (s : State) (x y z : Word) : exec (.fbwr x y z) s = .next (answer (portWriteFb s x y z) none) := rfl

theorem exec_fbrd (s : State) (x y : Word) :
    exec (.fbrd x y) s = .next (answer s (some (.word16 (portReadFb s x y)))) := rfl

theorem exec_cellwr (s : State) (x y z : Word) :
    exec (.cellwr x y z) s = .next (answer (portWriteCell s x y z) none) := rfl

theorem exec_cellrd (s : State) (x y : Word) :
    exec (.cellrd x y) s = .next (answer s (some (.word16 (portReadCell s x y)))) := rfl

/-! ## The ranges -/

theorem inFb_iff {p : Params} {y x : Nat} :
    inFb p y x = true ↔ ∃ rows, p.content = .bitmap rows ∧ y < rows ∧ x < p.wpl := by
  cases content : p.content <;> simp [inFb, content]

theorem inCell_iff {p : Params} {y x : Nat} :
    inCell p y x = true ↔ ∃ rows h font, p.content = .text rows h font ∧ y < rows ∧ x < p.textCols := by
  cases content : p.content <;> simp [inCell, content]

/-! ## The cell word -/

/-- The bits of a cell word: the code in bits 7:0, the flag in bit 15, zeros between (R64). -/
theorem getLsbD_wordOfCell (c : TextCell) (i : Nat) :
    (wordOfCell c).getLsbD i = if i < 8 then c.code.getLsbD i else (decide (i = 15) && c.inv) := by
  simp only [wordOfCell, BitVec.getLsbD_cast, BitVec.getLsbD_append, BitVec.getLsbD_zero, BitVec.getLsbD_ofBool]
  split_ifs
  · rfl
  · have notFlag : i ≠ 15 := by omega
    simp [notFlag]
  · have flagBit : i - 8 - 7 = 0 ↔ i = 15 := by omega
    simp [flagBit]

theorem wordOfCell_flag (c : TextCell) : (wordOfCell c).getLsbD 15 = c.inv :=
  (getLsbD_wordOfCell c 15).trans (Bool.true_and _)

theorem wordOfCell_unused (c : TextCell) : (wordOfCell c).extractLsb' 8 7 = 0#7 := by
  ext i hi
  have notFlag : 8 + i ≠ 15 := by omega
  simp [getLsbD_wordOfCell, notFlag]

theorem wordOfCell_code (c : TextCell) : (wordOfCell c).extractLsb' 0 8 = c.code := by
  ext i hi
  simp [getLsbD_wordOfCell, hi]

/-- The bits a cell keeps of the word written to it are 15 and 7:0 (R64). -/
theorem getLsbD_cellMask : ∀ i < 16, (0x80FF#16).getLsbD i = (decide (i < 8) || decide (i = 15)) := by decide

/-- A cell word comes back from its cell without bits 14:8 (R64). -/
theorem wordOfCell_cellOfWord (z : Word) : wordOfCell (cellOfWord z) = z &&& 0x80FF#16 := by
  apply BitVec.eq_of_getLsbD_eq
  intro i hi
  rw [getLsbD_wordOfCell, BitVec.getLsbD_and, getLsbD_cellMask i hi]
  by_cases low : i < 8
  · simp [cellOfWord, low]
  · by_cases flag : i = 15
    · simp [cellOfWord, flag]
    · simp [low, flag]

/-! ## A read after a write -/

/-- Two elements that the host port addresses are the same row and column exactly when their operands are the same. -/
theorem coordinates_eq_iff {x y x' y' : Word} : (y.toNat = y'.toNat ∧ x.toNat = x'.toNat) ↔ x' = x ∧ y' = y := by
  rw [BitVec.toNat_inj, BitVec.toNat_inj]
  exact ⟨fun ⟨row, col⟩ => ⟨col.symm, row.symm⟩, fun ⟨col, row⟩ => ⟨row.symm, col.symm⟩⟩

/-- The bitmap port reads what it wrote, and elsewhere what it read before (R73, R180, R181). -/
theorem portReadFb_portWriteFb {s : State} (wf : Memory.wf s.fb = true) (x y z x' y' : Word) :
    portReadFb (portWriteFb s x y z) x' y' =
      if inFb s.config.val y.toNat x.toNat = true ∧ x' = x ∧ y' = y then z else portReadFb s x' y' := by
  obtain ⟨inside, written⟩ | ⟨outside, unchanged⟩ := portWriteFb_cases s x y z
  · rw [written, portReadFb, writeFb_config, readFb_writeFb s _ _ _ _ z wf x.isLt x'.isLt]
    simp only [coordinates_eq_iff, inside, true_and]
    by_cases same : x' = x ∧ y' = y
    · obtain ⟨rfl, rfl⟩ := same; simp [inside]
    · simp only [if_neg same, portReadFb]
  · simp [unchanged, outside]

/-- The text port reads the cell it wrote as the word without bits 14:8, and elsewhere what it read before (R64, R73, R182,
R183). -/
theorem portReadCell_portWriteCell {s : State} (wf : Memory.wf s.cell = true) (x y z x' y' : Word) :
    portReadCell (portWriteCell s x y z) x' y' =
      if inCell s.config.val y.toNat x.toNat = true ∧ x' = x ∧ y' = y then z &&& 0x80FF#16
      else portReadCell s x' y' := by
  obtain ⟨inside, written⟩ | ⟨outside, unchanged⟩ := portWriteCell_cases s x y z
  · rw [written, portReadCell, writeCell_config, readCell_writeCell s _ _ _ _ _ wf x.isLt x'.isLt]
    simp only [coordinates_eq_iff, inside, true_and]
    by_cases same : x' = x ∧ y' = y
    · obtain ⟨rfl, rfl⟩ := same; simp [inside, wordOfCell_cellOfWord]
    · simp only [if_neg same, portReadCell]
  · simp [unchanged, outside]

/-- Settles O29: the read completes in the state that the write leaves. -/
theorem bitmapReadAfterWrite : Obligations.BitmapReadAfterWrite := by
  intro s x y z x' y' wf
  refine ⟨_, _, exec_fbwr s x y z, exec_fbrd _ x' y', ?_⟩
  rw [← portReadFb_portWriteFb wf]
  rfl

/-- Settles O30: as O29, with the cell word that comes back from its cell. -/
theorem textReadAfterWrite : Obligations.TextReadAfterWrite := by
  intro s x y z x' y' wf
  refine ⟨_, _, exec_cellwr s x y z, exec_cellrd _ x' y', ?_⟩
  rw [← portReadCell_portWriteCell wf]
  rfl

/-- Settles O23: the port tests the range, on the variant of the instance, before it accesses the element. -/
theorem bitmapPort : Obligations.BitmapPort := by
  intro s x y z
  rw [← inFb_iff, exec_fbwr, exec_fbrd]
  refine ⟨fun inside => ?_, fun outside => ?_⟩
  · rw [portWriteFb, portReadFb, if_pos inside, if_pos inside]
    exact ⟨rfl, rfl⟩
  · rw [portWriteFb, portReadFb, if_neg outside, if_neg outside]
    exact ⟨rfl, rfl⟩

/-- Settles O24: as O23, with the three fields of the cell word (R64). -/
theorem textPort : Obligations.TextPort := by
  intro s x y z
  rw [← inCell_iff, exec_cellwr, exec_cellrd]
  refine ⟨fun inside => ?_, fun outside => ?_⟩
  · rw [portWriteCell, portReadCell, if_pos inside, if_pos inside]
    exact ⟨rfl, _, rfl, wordOfCell_flag _, wordOfCell_unused _, wordOfCell_code _⟩
  · rw [portWriteCell, portReadCell, if_neg outside, if_neg outside]
    exact ⟨rfl, rfl⟩

end Sys2Proof.Machine
end

section
/-! SUPPORT. The timer and the host's control of the block (R200 to R222): the bits of the mask of `START`, setup open
and closed, and each operation of the family whole. -/

namespace Sys2Proof.Machine

/-! ## The checks of `START` (R215) -/

theorem badSum_iff (t : FrameTiming) :
    t.badSum = true ↔ t.vSync.toNat + t.vBack.toNat + t.vVisible.toNat + t.vFront.toNat ≠ t.vTotal.toNat :=
  decide_eq_true_iff

/-- The checks compare registers; R215 speaks of their values as unbounded integers. -/
theorem word_beq_zero_iff (a : Word) : (a == 0#16) = true ↔ a.toNat = 0 :=
  beq_iff_eq.trans BitVec.toNat_inj.symm

theorem zeroCount_iff (t : FrameTiming) :
    t.zeroCount = true ↔
      t.vSync.toNat = 0 ∨ t.vBack.toNat = 0 ∨ t.vVisible.toNat = 0 ∨ t.vFront.toNat = 0 := by
  simp only [FrameTiming.zeroCount, Bool.or_eq_true, word_beq_zero_iff, or_assoc]

theorem badOffset_iff (t : FrameTiming) :
    t.badOffset = true ↔ t.hTotal.toNat ≤ t.hSyncEnd.toNat ∨ t.hTotal.toNat ≤ t.hDataStart.toNat := by
  simp only [FrameTiming.badOffset, Bool.or_eq_true, decide_eq_true_eq]

theorem zeroScale_iff (t : FrameTiming) : t.zeroScale = true ↔ t.vScale.toNat = 0 := word_beq_zero_iff _

theorem textScaled_iff (p : Params) (t : FrameTiming) :
    textScaled p t = true ↔ (∃ rows h font, p.content = .text rows h font) ∧ t.vScale.toNat ≠ 1 := by
  cases content : p.content with
  | bitmap rows => simp [textScaled, content]
  | text rows h font => simp [textScaled, content, ← BitVec.toNat_inj]

/-- The bits of an error bit are its own when the condition holds. -/
theorem getLsbD_errBit (c : Bool) (v : BitVec 5) (i : Nat) : (errBit c v).getLsbD i = (c && v.getLsbD i) := by
  cases c <;> simp [errBit]

/-- The five error values of R215 are five different bits, so each bit of the mask is one condition. -/
theorem getLsbD_checkMask (p : Params) (t : FrameTiming) :
    (checkMask p t).getLsbD 0 = t.badSum ∧ (checkMask p t).getLsbD 1 = t.zeroCount ∧
      (checkMask p t).getLsbD 2 = t.badOffset ∧ (checkMask p t).getLsbD 3 = t.zeroScale ∧
      (checkMask p t).getLsbD 4 = textScaled p t := by
  simp only [checkMask, BitVec.getLsbD_or, getLsbD_errBit]
  simp

/-- Four counts of at least one line each make a frame of at least four (R215). -/
theorem four_le_vTotal_of_valid {p : Params} {t : FrameTiming} (valid : checkMask p t = 0#5) :
    4 ≤ t.vTotal.toNat := by
  obtain ⟨sum, counts, -⟩ := (checkMask_eq_zero p t).mp valid
  rw [← Bool.not_eq_true, badSum_iff] at sum
  rw [← Bool.not_eq_true, zeroCount_iff] at counts
  omega

/-- Settles O19, bit by bit. -/
theorem checkReportsEveryFailure : Obligations.CheckReportsEveryFailure := by
  intro p t
  obtain ⟨sum, counts, offsets, scale, text⟩ := getLsbD_checkMask p t
  rw [sum, counts, offsets, scale, text]
  exact ⟨badSum_iff t, zeroCount_iff t, badOffset_iff t, zeroScale_iff t, textScaled_iff p t,
    fun valid => ⟨hTotal_pos_of_valid valid, four_le_vTotal_of_valid valid⟩⟩

/-! ## Setup open and closed (R207, R210) -/

theorem setupOpen_eq_false_iff (s : State) :
    setupOpen s = false ↔ s.control.run = true ∨ s.control.cfgErr ≠ 0#5 := by
  rw [← Bool.not_eq_true, setupOpen_iff, not_and_or, Bool.not_eq_false]

theorem configure_open {s : State} (hopen : setupOpen s = true) (t : FrameTiming) :
    configure s t = { s with timing := t } := by rw [configure_eq, if_pos hopen]

theorem configure_closed {s : State} (closed : setupOpen s = false) (t : FrameTiming) : configure s t = s := by
  rw [configure_eq, closed]; rfl

theorem exec_cfgh (s : State) (x y z : Word) : exec (.cfgh x y z) s =
    .next (answer (configure s { s.timing with hTotal := x, hSyncEnd := y, hDataStart := z }) none) := rfl

theorem exec_cfgv (s : State) (x y z : Word) : exec (.cfgv x y z) s =
    .next (answer (configure s { s.timing with vSync := x, vBack := y, vVisible := z }) none) := rfl

theorem exec_cfgf (s : State) (x y z : Word) : exec (.cfgf x y z) s =
    .next (answer (configure s { s.timing with vFront := x, vTotal := y, vScale := z }) none) := rfl

/-- Settles O18: the three operations differ only in the registers they hand to `configure`. -/
theorem configurationWrites : Obligations.ConfigurationWrites := by
  intro s x y z
  rw [← setupOpen_iff, ← setupOpen_eq_false_iff, exec_cfgh, exec_cfgv, exec_cfgf]
  refine ⟨fun hopen => ?_, fun closed => ?_⟩
  · simp only [configure_open hopen]
    exact ⟨rfl, rfl, rfl⟩
  · simp only [configure_closed closed]
    exact ⟨rfl, rfl, rfl⟩

/-- `START` always completes (R210). -/
theorem exec_start (s : State) : exec .start s =
    .next (if setupOpen s then startChecked s (checkMask s.config.val s.timing)
           else answer s (some (.word32 eRefused))) := rfl

/-- Settles O20: the two tests of `START`, setup open and then a clear mask. -/
theorem startReportsOrRuns : Obligations.StartReportsOrRuns := by
  intro s
  rw [← setupOpen_eq_false_iff, exec_start]
  refine ⟨fun closed => ?_, fun stopped noError failed => ?_, fun stopped noError passed => ?_⟩
  · rw [closed]; rfl
  · rw [if_pos ((setupOpen_iff s).mpr ⟨stopped, noError⟩), startChecked, if_neg failed]; rfl
  · rw [if_pos ((setupOpen_iff s).mpr ⟨stopped, noError⟩), startChecked, if_pos passed]; rfl

/-! ## The pixel clock (R200, R201) -/

theorem exec_pclk (s : State) : exec .pclk s = .next (answer (timerTick (shiftTick s)) none) := rfl

theorem shiftTick_stopped {s : State} (stopped : s.control.run = false) : shiftTick s = s := by
  rw [shiftTick_eq, stopped]; rfl

theorem shiftTick_running {s : State} (run : s.control.run = true) :
    shiftTick s = { s with shifter := shiftBit (shiftReload s.shifter) } := by
  rw [shiftTick_eq, if_pos run]

/-- Settles O12: the timer's half reads nothing that the shifter's half has written. -/
theorem pixelClockAdvancesTheTimer : Obligations.PixelClockAdvancesTheTimer := by
  intro s
  rw [exec_pclk]
  refine ⟨fun stopped => ?_, fun run => ?_⟩
  · rw [shiftTick_stopped stopped, timerTick_stopped s stopped]; rfl
  · rw [shiftTick_running run, timerTick_eq (h := by exact run)]; rfl

/-! ## The other controls (R53, R218 to R222) -/

/-- Settles O10: the next draw number is another one. -/
theorem resetRestoresPowerOn : Obligations.ResetRestoresPowerOn :=
  fun s => ⟨s.draw + 1, Nat.succ_ne_self _, exec_reset_next.mpr rfl⟩

/-- Settles O21: `HOLD` is written without being read. -/
theorem criticalSectionBit : Obligations.CriticalSectionBit := fun _ => ⟨rfl, rfl⟩

/-- Settles O22: the frame counter is answered as it stands. -/
theorem rdfcReturnsTheFrame : Obligations.RdfcReturnsTheFrame := fun _ => rfl

end Sys2Proof.Machine
end

section
/-! SUPPORT. The host software on the content store (R230 to R249): what a routine leaves in the cells or words, what
it leaves of the rest of the block and of the cursor, and how many operations it issues. -/

namespace Sys2Proof.Machine

/-! ## Loops of a routine -/

/-- An induction over the indices of a loop. -/
theorem foldl_range_induction {σ : Type} {f : σ → Nat → σ} {motive : Nat → σ → Prop} {n : Nat} {s : σ}
    (start : motive 0 s) (each : ∀ k < n, ∀ t, motive k t → motive (k + 1) (f t k)) :
    motive n ((List.range n).foldl f s) := by
  induction n with
  | zero => exact start
  | succ n ih =>
    rw [List.range_succ, List.foldl_concat]
    exact each n n.lt_succ_self _ (ih fun k below => each k (Nat.lt_succ_of_lt below))

/-- What each pass of a loop keeps, the loop keeps. -/
theorem foldl_keeps {β γ : Type} {f : HostSide → β → HostSide} {kept : HostSide → γ}
    (each : ∀ g b, kept (f g b) = kept g) (bs : List β) (h : HostSide) : kept (bs.foldl f h) = kept h := by
  induction bs generalizing h with
  | nil => rfl
  | cons b bs ih => exact (ih (f h b)).trans (each h b)

/-- A loop issues as many operations as its passes do. -/
theorem foldl_issued_length {β : Type} {f : HostSide → β → HostSide} {n : Nat}
    (each : ∀ g b, (f g b).issued.length = g.issued.length + n) (bs : List β) (h : HostSide) :
    (bs.foldl f h).issued.length = h.issued.length + n * bs.length := by
  induction bs generalizing h with
  | nil => rfl
  | cons b bs ih => rw [List.foldl_cons, ih, each, List.length_cons, Nat.mul_succ]; omega

section Elements

variable {α : Type}

/-- The elements of a store with the one in row `r` and column `c` set to `v`. -/
def setElem (elems : Nat → Nat → α) (r c : Nat) (v : α) : Nat → Nat → α :=
  fun y x => if y = r ∧ x = c then v else elems y x

/-- The elements with the first `n` of row `r` taken from `v`. -/
def fillRow (elems : Nat → Nat → α) (r n : Nat) (v : Nat → α) : Nat → Nat → α :=
  fun y x => if y = r ∧ x < n then v x else elems y x

/-- The elements with the first `cols` of each of the first `n` rows taken from `v`. -/
def fillRows (elems : Nat → Nat → α) (n cols : Nat) (v : Nat → Nat → α) : Nat → Nat → α :=
  fun y x => if y < n ∧ x < cols then v y x else elems y x

theorem fillRow_zero (elems : Nat → Nat → α) (r : Nat) (v : Nat → α) : fillRow elems r 0 v = elems := by
  funext y x; simp [fillRow]

theorem fillRows_zero (elems : Nat → Nat → α) (cols : Nat) (v : Nat → Nat → α) : fillRows elems 0 cols v = elems := by
  funext y x; simp [fillRows]

theorem setElem_fillRow (elems : Nat → Nat → α) (r n : Nat) (v : Nat → α) :
    setElem (fillRow elems r n v) r n (v n) = fillRow elems r (n + 1) v := by
  funext y x
  by_cases last : x = n
  · subst last; by_cases row : y = r <;> simp [setElem, fillRow, row]
  · have before : x < n + 1 ↔ x < n := by omega
    simp [setElem, fillRow, last, before]

theorem fillRow_fillRows (elems : Nat → Nat → α) (n cols : Nat) (v : Nat → Nat → α) :
    fillRow (fillRows elems n cols v) n cols (v n) = fillRows elems (n + 1) cols v := by
  funext y x
  by_cases last : y = n
  · subst last; by_cases col : x < cols <;> simp [fillRow, fillRows, col]
  · have before : y < n + 1 ↔ y < n := by omega
    simp [fillRow, fillRows, last, before]

variable {holds : HostSide → (Nat → Nat → α) → Prop} {elems : Nat → Nat → α} {h : HostSide}

/-- A loop over the columns that sets one element in each pass fills the row. -/
theorem foldl_fillRow {f : HostSide → Nat → HostSide} {r n : Nat} {v : Nat → α} (start : holds h elems)
    (each : ∀ c < n, ∀ g, holds g (fillRow elems r c v) → holds (f g c) (setElem (fillRow elems r c v) r c (v c))) :
    holds ((List.range n).foldl f h) (fillRow elems r n v) :=
  foldl_range_induction (motive := fun c g => holds g (fillRow elems r c v)) (by rwa [fillRow_zero])
    fun c below g filled => setElem_fillRow elems r c v ▸ each c below g filled

/-- A loop over the rows that fills one row in each pass fills the rows. -/
theorem foldl_fillRows {f : HostSide → Nat → HostSide} {n cols : Nat} {v : Nat → Nat → α} (start : holds h elems)
    (each : ∀ r < n, ∀ g, holds g (fillRows elems r cols v) →
      holds (f g r) (fillRow (fillRows elems r cols v) r cols (v r))) :
    holds ((List.range n).foldl f h) (fillRows elems n cols v) :=
  foldl_range_induction (motive := fun r g => holds g (fillRows elems r cols v)) (by rwa [fillRows_zero])
    fun r below g filled => fillRow_fillRows elems r cols v ▸ each r below g filled

end Elements

/-! ## The text store under the host port -/

/-- The block is an instance with parameters `c`, and its cells, in canonical form, are `cells`. -/
structure TextHolds (c : Config) (h : HostSide) (cells : Nat → Nat → TextCell) : Prop where
  params : h.block.config = c
  wf : Memory.wf h.block.cell = true
  reads : ∀ y x, x < 65536 → readCell h.block y x = cells y x

theorem inCell_bounds {c : Config} {y x : Nat} (inside : inCell c.val y x = true) : y < 65536 ∧ x < 65536 := by
  obtain ⟨rows, glyphH, font, content, row, col⟩ := inCell_iff.mp inside
  obtain ⟨rowBound, -, colBound⟩ := text_bounds content
  exact ⟨row.trans rowBound, col.trans colBound⟩

/-- The host port writes the cell of the grid that its operands name (R182). -/
theorem portWriteCell_ofNat {s : State} {y x : Nat} (inside : inCell s.config.val y x = true) (z : Word) :
    portWriteCell s (BitVec.ofNat 16 x) (BitVec.ofNat 16 y) z = writeCell s y x (cellOfWord z) := by
  obtain ⟨rowBound, colBound⟩ := inCell_bounds inside
  rw [portWriteCell, BitVec.toNat_ofNat, BitVec.toNat_ofNat, Nat.mod_eq_of_lt rowBound, Nat.mod_eq_of_lt colBound,
    if_pos inside]

/-- The host port reads the cell of the grid that its operands name (R183). -/
theorem portReadCell_ofNat {s : State} {y x : Nat} (inside : inCell s.config.val y x = true) :
    portReadCell s (BitVec.ofNat 16 x) (BitVec.ofNat 16 y) = wordOfCell (readCell s y x) := by
  obtain ⟨rowBound, colBound⟩ := inCell_bounds inside
  rw [portReadCell, BitVec.toNat_ofNat, BitVec.toNat_ofNat, Nat.mod_eq_of_lt rowBound, Nat.mod_eq_of_lt colBound,
    if_pos inside]

/-- A cell comes back from its cell word (R64). -/
theorem cellOfWord_wordOfCell (k : TextCell) : cellOfWord (wordOfCell k) = k := by
  rw [cellOfWord, wordOfCell_flag, wordOfCell_code]

namespace TextHolds

variable {c : Config} {h : HostSide} {cells : Nat → Nat → TextCell}

theorem self (wf : Memory.wf h.block.cell = true) : TextHolds h.block.config h (readCell h.block) :=
  ⟨rfl, wf, fun _ _ _ => rfl⟩

/-- `CELLWR` in the grid sets its cell (R182). -/
theorem cellwr (holds : TextHolds c h cells) {y x : Nat} (inside : inCell c.val y x = true) (z : Word) :
    TextHolds c (issue h (.cellwr (BitVec.ofNat 16 x) (BitVec.ofNat 16 y) z)) (setElem cells y x (cellOfWord z)) := by
  obtain ⟨rfl, wf, reads⟩ := holds
  rw [issue_cellwr, portWriteCell_ofNat inside]
  refine ⟨rfl, Memory.wf_write _ _ _ wf, fun y' x' colBound => ?_⟩
  rw [setElem, ← reads y' x' colBound]
  refine (readCell_writeCell h.block y x y' x' _ wf (inCell_bounds inside).2 colBound).trans ?_
  simp only [eq_comm]

/-- The blanking of one cell (R237, R238). -/
theorem blankCell (holds : TextHolds c h cells) {y x : Nat} (inside : inCell c.val y x = true) :
    TextHolds c (blankCell y h x) (setElem cells y x ⟨false, 0x00#8⟩) := holds.cellwr inside 0#16

/-- The copy of one cell from the row below (R237): the word read is that of the cell below. -/
theorem copyCellUp (holds : TextHolds c h cells) {y x : Nat} (inside : inCell c.val y x = true)
    (below : inCell c.val (y + 1) x = true) : TextHolds c (copyCellUp y h x) (setElem cells y x (cells (y + 1) x)) := by
  have read : got16 (issue h (.cellrd (BitVec.ofNat 16 x) (BitVec.ofNat 16 (y + 1)))) =
      wordOfCell (cells (y + 1) x) := by
    rw [← holds.reads _ _ (inCell_bounds below).2]
    exact portReadCell_ofNat (by rwa [holds.params])
  have afterRead : TextHolds c (issue h (.cellrd (BitVec.ofNat 16 x) (BitVec.ofNat 16 (y + 1)))) cells :=
    ⟨holds.params, holds.wf, holds.reads⟩
  have copied := afterRead.cellwr inside (wordOfCell (cells (y + 1) x))
  rw [cellOfWord_wordOfCell] at copied
  simpa only [Machine.copyCellUp, read] using copied

/-- The critical section leaves what its body leaves (R218, R219, R245). -/
theorem withCs {body : HostSide → HostSide} {after : Nat → Nat → TextCell} (holds : TextHolds c h cells)
    (inside : ∀ g, TextHolds c g cells → TextHolds c (body g) after) : TextHolds c (withCs body h) after := by
  obtain ⟨params, wf, reads⟩ := inside (Machine.issue h .csenter) ⟨holds.params, holds.wf, holds.reads⟩
  exact ⟨params, wf, reads⟩

section Routines

variable {rows glyphH : Nat} {font : List Byte} (content : c.val.content = .text rows glyphH font)
include content

theorem blankRow (holds : TextHolds c h cells) {r : Nat} (row : r < rows) :
    TextHolds c ((List.range c.val.textCols).foldl (Machine.blankCell r) h)
      (fillRow cells r c.val.textCols fun _ => ⟨false, 0x00#8⟩) :=
  foldl_fillRow holds fun _ col _ filled => filled.blankCell (inCell_iff.mpr ⟨_, _, _, content, row, col⟩)

/-- The row below is the old one while the row above it fills. -/
theorem copyRowUp (holds : TextHolds c h cells) {r : Nat} (row : r + 1 < rows) :
    TextHolds c (copyRowUp c.val.textCols h r) (fillRow cells r c.val.textCols (cells (r + 1))) := by
  refine foldl_fillRow holds fun x col g filled => ?_
  have below : fillRow cells r x (cells (r + 1)) (r + 1) x = cells (r + 1) x := by simp [fillRow]
  have copied := filled.copyCellUp (inCell_iff.mpr ⟨_, _, _, content, Nat.lt_of_succ_lt row, col⟩)
    (inCell_iff.mpr ⟨_, _, _, content, row, col⟩)
  rwa [below] at copied

/-- The rows fill from the top, so each row below the filled ones is still the old one (R237). -/
theorem copyRowsUp (holds : TextHolds c h cells) :
    TextHolds c ((List.range (rows - 1)).foldl (Machine.copyRowUp c.val.textCols) h)
      (fillRows cells (rows - 1) c.val.textCols fun y => cells (y + 1)) := by
  refine foldl_fillRows holds fun r row g filled => ?_
  have below : fillRows cells r c.val.textCols (fun y => cells (y + 1)) (r + 1) = cells (r + 1) := by
    funext x; simp [fillRows]
  have copied := filled.copyRowUp content (r := r) (by omega)
  rwa [below] at copied

/-- `scroll()` on the cells: the copied rows, then the blank last row (R237). -/
theorem scroll (holds : TextHolds c h cells) (someRow : 0 < rows) :
    TextHolds c (scroll h)
      (fillRow (fillRows cells (rows - 1) c.val.textCols fun y => cells (y + 1)) (rows - 1) c.val.textCols
        fun _ => ⟨false, 0x00#8⟩) := by
  simp only [Machine.scroll, holds.params, textRowsOf, content]
  exact holds.withCs fun g entered => (entered.copyRowsUp content).blankRow content (by omega)

/-- `clear()` on the cells of a text instance (R238). -/
theorem clear (holds : TextHolds c h cells) :
    TextHolds c (clear h) (fillRows cells rows c.val.textCols fun _ _ => ⟨false, 0x00#8⟩) := by
  simp only [Machine.clear, holds.params, content]
  exact holds.withCs fun g entered => foldl_fillRows entered fun r row g filled => filled.blankRow content row

end Routines

end TextHolds

/-! ## The bitmap store under the host port -/

/-- The block is an instance with parameters `c`, and the words of its bitmap, in canonical form, are `words`. -/
structure BitmapHolds (c : Config) (h : HostSide) (words : Nat → Nat → Word) : Prop where
  params : h.block.config = c
  wf : Memory.wf h.block.fb = true
  reads : ∀ y x, x < 65536 → readFb h.block y x = words y x

theorem inFb_bounds {c : Config} {y x : Nat} (inside : inFb c.val y x = true) : y < 65536 ∧ x < 65536 := by
  obtain ⟨rows, content, row, col⟩ := inFb_iff.mp inside
  have wf := c.property
  simp only [Params.wf, content, Content.wf, sizeOk, Bool.and_eq_true, decide_eq_true_eq] at wf
  have colBound := (wpl_bounds c).2
  omega

/-- The host port writes the word of the buffer that its operands name (R180). -/
theorem portWriteFb_ofNat {s : State} {y x : Nat} (inside : inFb s.config.val y x = true) (z : Word) :
    portWriteFb s (BitVec.ofNat 16 x) (BitVec.ofNat 16 y) z = writeFb s y x z := by
  obtain ⟨rowBound, colBound⟩ := inFb_bounds inside
  rw [portWriteFb, BitVec.toNat_ofNat, BitVec.toNat_ofNat, Nat.mod_eq_of_lt rowBound, Nat.mod_eq_of_lt colBound,
    if_pos inside]

/-- The host port reads the word of the buffer that its operands name (R181). -/
theorem portReadFb_ofNat {s : State} {y x : Nat} (inside : inFb s.config.val y x = true) :
    portReadFb s (BitVec.ofNat 16 x) (BitVec.ofNat 16 y) = readFb s y x := by
  obtain ⟨rowBound, colBound⟩ := inFb_bounds inside
  rw [portReadFb, BitVec.toNat_ofNat, BitVec.toNat_ofNat, Nat.mod_eq_of_lt rowBound, Nat.mod_eq_of_lt colBound,
    if_pos inside]

namespace BitmapHolds

variable {c : Config} {h : HostSide} {words : Nat → Nat → Word}

theorem self (wf : Memory.wf h.block.fb = true) : BitmapHolds h.block.config h (readFb h.block) :=
  ⟨rfl, wf, fun _ _ _ => rfl⟩

/-- `FBWR` in the buffer sets its word (R180). -/
theorem fbwr (holds : BitmapHolds c h words) {y x : Nat} (inside : inFb c.val y x = true) (z : Word) :
    BitmapHolds c (issue h (.fbwr (BitVec.ofNat 16 x) (BitVec.ofNat 16 y) z)) (setElem words y x z) := by
  obtain ⟨rfl, wf, reads⟩ := holds
  rw [issue_fbwr, portWriteFb_ofNat inside]
  refine ⟨rfl, Memory.wf_write _ _ _ wf, fun y' x' colBound => ?_⟩
  rw [setElem, ← reads y' x' colBound]
  refine (readFb_writeFb h.block y x y' x' _ wf (inFb_bounds inside).2 colBound).trans ?_
  simp only [eq_comm]

/-- The critical section leaves what its body leaves (R218, R219, R245). -/
theorem withCs {body : HostSide → HostSide} {after : Nat → Nat → Word} (holds : BitmapHolds c h words)
    (inside : ∀ g, BitmapHolds c g words → BitmapHolds c (body g) after) : BitmapHolds c (withCs body h) after := by
  obtain ⟨params, wf, reads⟩ := inside (Machine.issue h .csenter) ⟨holds.params, holds.wf, holds.reads⟩
  exact ⟨params, wf, reads⟩

/-- `clear()` on the words of a bitmap instance (R238). -/
theorem clear (holds : BitmapHolds c h words) {rows : Nat} (content : c.val.content = .bitmap rows) :
    BitmapHolds c (clear h) (fillRows words rows c.val.wpl fun _ _ => 0#16) := by
  simp only [Machine.clear, holds.params, content]
  exact holds.withCs fun g entered => foldl_fillRows entered fun r row g filled =>
    foldl_fillRow filled fun x col g zeroed => zeroed.fbwr (inFb_iff.mpr ⟨_, content, row, col⟩) 0#16

end BitmapHolds

/-! ## What the routines leave beside the store -/

/-- The host's side without the cells, the last result and the record of the operations issued. -/
def besideCells (h : HostSide) : HostSide :=
  { h with block := { h.block with cell := [], result := none }, issued := [] }

theorem besideCells_cellwr (h : HostSide) (x y z : Word) : besideCells (issue h (.cellwr x y z)) = besideCells h := by
  obtain ⟨m, written⟩ := portWriteCell_eq h.block x y z
  rw [issue_cellwr, written]
  rfl

theorem besideCells_blankCell (r : Nat) (h : HostSide) (c : Nat) : besideCells (blankCell r h c) = besideCells h :=
  besideCells_cellwr _ _ _ _

/-- The read changes the result only. -/
theorem besideCells_copyCellUp (r : Nat) (h : HostSide) (c : Nat) : besideCells (copyCellUp r h c) = besideCells h :=
  besideCells_cellwr _ _ _ _

theorem besideCells_copyRowUp (cols : Nat) (h : HostSide) (r : Nat) :
    besideCells (copyRowUp cols h r) = besideCells h := foldl_keeps (besideCells_copyCellUp r) _ h

/-- `HOLD` is 0 after a critical section, whatever it was before (R218, R219). -/
theorem besideCells_withCs {body : HostSide → HostSide} (inside : ∀ g, besideCells (body g) = besideCells g)
    (h : HostSide) : besideCells (withCs body h) = besideCells { h with block := setHold h.block false } :=
  congrArg (fun g : HostSide => { g with block := setHold g.block false }) (inside (issue h .csenter))

theorem besideCells_scroll (h : HostSide) :
    besideCells (scroll h) = besideCells { h with block := setHold h.block false } := by
  rw [scroll]
  refine besideCells_withCs (fun g => ?_) h
  rw [foldl_keeps (besideCells_blankCell _), foldl_keeps (besideCells_copyRowUp _)]

theorem issued_length_copyCellUp (r : Nat) (h : HostSide) (c : Nat) :
    (copyCellUp r h c).issued.length = h.issued.length + 2 := by
  simp [copyCellUp]

theorem issued_length_copyRowUp (cols : Nat) (h : HostSide) (r : Nat) :
    (copyRowUp cols h r).issued.length = h.issued.length + 2 * cols := by
  rw [copyRowUp, foldl_issued_length (issued_length_copyCellUp r), List.length_range]

theorem issued_length_blankRow (cols r : Nat) (h : HostSide) :
    ((List.range cols).foldl (blankCell r) h).issued.length = h.issued.length + cols := by
  rw [foldl_issued_length (n := 1) (fun _ _ => by simp [blankCell]), List.length_range, Nat.one_mul]

theorem issued_length_withCs {body : HostSide → HostSide} {n : Nat}
    (inside : ∀ g, (body g).issued.length = g.issued.length + n) (h : HostSide) :
    (withCs body h).issued.length = h.issued.length + 2 + n := by
  rw [withCs, issue_csexit, List.length_append, inside, issue_csenter, List.length_append]
  simp only [List.length_singleton]
  omega

/-- The copies take a read and a write for each cell, the blanks a write (R237). -/
theorem issued_length_scroll (h : HostSide) :
    (scroll h).issued.length = h.issued.length + 2 +
      (2 * (textRowsOf h.block.config.val - 1) * h.block.config.val.textCols + h.block.config.val.textCols) := by
  refine issued_length_withCs (fun g => ?_) h
  rw [issued_length_blankRow, foldl_issued_length (issued_length_copyRowUp _), List.length_range, Nat.mul_right_comm,
    Nat.add_assoc]

/-- The cursor (R54). -/
def cursor (h : HostSide) : Nat × Nat := (h.curCol, h.curRow)

@[simp] theorem cursor_issue (h : HostSide) (i : Instr) : cursor (issue h i) = cursor h := by
  rw [cursor, issue_curCol, issue_curRow, cursor]

theorem cursor_withCs {body : HostSide → HostSide} (inside : ∀ g, cursor (body g) = cursor g) (h : HostSide) :
    cursor (withCs body h) = cursor h := by
  rw [withCs, cursor_issue, inside, cursor_issue]

/-- `clear()` does not move the cursor (R238). -/
theorem cursor_clear (h : HostSide) : cursor (clear h) = cursor h := by
  refine cursor_withCs (fun g => ?_) h
  split
  · exact foldl_keeps (fun g r => foldl_keeps (fun _ _ => cursor_issue _ _) _ g) _ g
  · exact foldl_keeps (fun g r => foldl_keeps (fun _ _ => cursor_issue _ _) _ g) _ g

/-! ## Scrolling and clearing -/

theorem text_rows_pos {c : Config} {rows glyphH : Nat} {font : List Byte}
    (content : c.val.content = .text rows glyphH font) : 0 < rows := by
  have wf := c.property
  simp only [Params.wf, content, Content.wf, sizeOk, Bool.and_eq_true, decide_eq_true_eq] at wf
  omega

/-- Settles O55: the cells from `TextHolds.scroll`, the rest of the block and the cursor from `besideCells_scroll`. -/
theorem scrollMovesTheRowsUp : Obligations.ScrollMovesTheRowsUp := by
  intro h rows glyphH font content wf
  have someRow := text_rows_pos content
  have colBound := (text_bounds content).2.2
  obtain ⟨-, -, reads⟩ := (TextHolds.self wf).scroll content someRow
  have beside := besideCells_scroll h
  have length := issued_length_scroll h
  simp only [textRowsOf, content] at length
  refine ⟨fun r c row col => ?_, fun c col => ?_, ⟨(scroll h).block.cell, ?_⟩, ?_, ?_, length⟩
  · rw [reads r c (col.trans colBound)]
    have copied : r < rows - 1 := by omega
    simp [fillRow, fillRows, copied, copied.ne, col]
  · rw [reads _ c (col.trans colBound)]
    simp [fillRow, col]
  · exact congrArg (fun g : HostSide => { g.block with cell := (scroll h).block.cell }) beside
  · exact (congrArg HostSide.curCol beside :)
  · exact (congrArg HostSide.curRow beside :)

/-- Settles O56, store by store. -/
theorem clearZeroesTheStore : Obligations.ClearZeroesTheStore := by
  intro h fbWf cellWf
  have kept := cursor_clear h
  refine ⟨fun y x inside => ?_, fun y x inside => ?_, congrArg Prod.fst kept, congrArg Prod.snd kept⟩
  · obtain ⟨rows, content, row, col⟩ := inFb_iff.mp inside
    obtain ⟨-, -, reads⟩ := (BitmapHolds.self fbWf).clear content
    rw [reads y x (inFb_bounds inside).2]
    exact if_pos ⟨row, col⟩
  · obtain ⟨rows, glyphH, font, content, row, col⟩ := inCell_iff.mp inside
    obtain ⟨-, -, reads⟩ := (TextHolds.self cellWf).clear content
    rw [reads y x (inCell_bounds inside).2]
    exact if_pos ⟨row, col⟩

/-! ## Points and lines -/

/-- The bits of a word after the pixel column `x` is set in it (R62, R240). -/
theorem getLsbD_setPixel (w : Word) (x px : Nat) (set : Bool) :
    (setPixel w x set).getLsbD (pixelBit px) = if px % 16 = x % 16 then set else w.getLsbD (pixelBit px) := by
  have inWord : pixelBit px < 16 := by unfold pixelBit; omega
  have mask : (1#16 <<< pixelBit x).getLsbD (pixelBit px) = decide (px % 16 = x % 16) := by
    rw [← BitVec.twoPow_eq, BitVec.getLsbD_twoPow]
    unfold pixelBit
    rw [Bool.eq_iff_iff, Bool.and_eq_true, decide_eq_true_eq, decide_eq_true_eq, decide_eq_true_eq]
    omega
  cases set
  · rw [setPixel, if_neg Bool.false_ne_true, BitVec.getLsbD_and, BitVec.getLsbD_not, mask]
    by_cases same : px % 16 = x % 16 <;> simp [same, inWord]
  · rw [setPixel, if_pos rfl, BitVec.getLsbD_or, mask]
    by_cases same : px % 16 = x % 16 <;> simp [same]

/-- `point` in the buffer sets the word that holds its pixel, to what was read with that pixel changed (R240). -/
theorem BitmapHolds.point {c : Config} {h : HostSide} {words : Nat → Nat → Word} (holds : BitmapHolds c h words)
    {rows x y : Nat} (content : c.val.content = .bitmap rows) (col : x < 16 * c.val.wpl) (row : y < rows) (set : Bool) :
    BitmapHolds c (point set h (x, y)) (setElem words y (pixelWord x) (setPixel (words y (pixelWord x)) x set)) := by
  have inside : inFb c.val y (pixelWord x) = true := inFb_iff.mpr ⟨rows, content, row, by unfold pixelWord; omega⟩
  have read : got16 (issue h (.fbrd (BitVec.ofNat 16 (pixelWord x)) (BitVec.ofNat 16 y))) =
      words y (pixelWord x) := by
    rw [← holds.reads _ _ (inFb_bounds inside).2]
    exact portReadFb_ofNat (by rwa [holds.params])
  have afterRead : BitmapHolds c (issue h (.fbrd (BitVec.ofNat 16 (pixelWord x)) (BitVec.ofNat 16 y))) words :=
    ⟨holds.params, holds.wf, holds.reads⟩
  rw [Machine.point, holds.params, if_pos (by simp only [fbRowsOf, content]; omega)]
  simp only [Int.toNat_natCast, read]
  exact afterRead.fbwr inside _

/-- A pixel column is its word and its place in the word (R62). -/
theorem pixel_eq_iff {px x : Nat} : px = x ↔ pixelWord px = pixelWord x ∧ px % 16 = x % 16 := by
  unfold pixelWord
  omega

/-- The stored pixels after `point` in the buffer (R62, R240). -/
theorem storedPixel_point_inside {h : HostSide} {rows x y : Nat}
    (content : h.block.config.val.content = .bitmap rows) (wf : Memory.wf h.block.fb = true)
    (col : x < 16 * h.block.config.val.wpl) (row : y < rows) (set : Bool) {px : Nat}
    (inRow : px < 16 * h.block.config.val.wpl) (py : Nat) :
    storedPixel (point set h (x, y)).block px py = if px = x ∧ py = y then set else storedPixel h.block px py := by
  have wplBound := (wpl_bounds h.block.config).2
  have wordBound : pixelWord px < 65536 := by unfold pixelWord; omega
  rw [storedPixel, ((BitmapHolds.self wf).point content col row set).reads _ _ wordBound, setElem]
  simp only [pixel_eq_iff (px := px) (x := x)]
  by_cases word : py = y ∧ pixelWord px = pixelWord x
  · obtain ⟨sameRow, sameWord⟩ := word
    rw [if_pos ⟨sameRow, sameWord⟩, getLsbD_setPixel]
    simp only [storedPixel, sameRow, sameWord, true_and, and_true]
  · rw [if_neg word, if_neg fun ⟨⟨sameWord, _⟩, sameRow⟩ => word ⟨sameRow, sameWord⟩, storedPixel]

/-- A point outside the buffer is dropped (R240, R252). -/
theorem point_outside {h : HostSide} {rows : Nat} (content : h.block.config.val.content = .bitmap rows) {q : Int × Int}
    (outside : ¬(0 ≤ q.1 ∧ q.1 < 16 * (h.block.config.val.wpl : Int) ∧ 0 ≤ q.2 ∧ q.2 < (rows : Int))) (set : Bool) :
    point set h q = h := by
  rw [point, fbRowsOf, content]
  exact if_neg outside

/-- Settles O57: the pixels by `storedPixel_point_inside`, on the coordinates as natural numbers. -/
theorem pointSetsOnePixel : Obligations.PointSetsOnePixel := by
  intro h rows x y set content wf
  refine ⟨fun xPos col yPos row => ?_, fun outside => point_outside content outside set⟩
  lift x to Nat using xPos
  lift y to Nat using yPos
  norm_cast at col row
  refine ⟨fun px py inRow _ => ?_, ?_⟩
  · simp only [Nat.cast_inj]
    exact storedPixel_point_inside content wf col row set inRow py
  · rw [point, if_pos (by simp only [fbRowsOf, content]; omega)]
    simp

/-- The block is a bitmap instance with parameters `c` and a store in canonical form, and its pixels are `pixels`. -/
structure PixelsHold (c : Config) (h : HostSide) (pixels : Nat → Nat → Bool) : Prop where
  params : h.block.config = c
  wf : Memory.wf h.block.fb = true
  reads : ∀ px py, px < 16 * c.val.wpl → py < fbRowsOf c.val → storedPixel h.block px py = pixels px py

/-- The pixels with those of the list set to `set`. -/
def setPixels (pixels : Nat → Nat → Bool) (qs : List (Int × Int)) (set : Bool) : Nat → Nat → Bool :=
  fun px py => if ((px : Int), (py : Int)) ∈ qs then set else pixels px py

theorem setPixels_nil (pixels : Nat → Nat → Bool) (set : Bool) : setPixels pixels [] set = pixels := by
  funext px py
  exact if_neg List.not_mem_nil

theorem setPixels_reverse (pixels : Nat → Nat → Bool) (qs : List (Int × Int)) (set : Bool) :
    setPixels pixels qs.reverse set = setPixels pixels qs set := by
  funext px py
  simp only [setPixels, List.mem_reverse]

theorem setPixels_cons (pixels : Nat → Nat → Bool) (q : Int × Int) (qs : List (Int × Int)) (set : Bool) :
    setPixels (setPixels pixels [q] set) qs set = setPixels pixels (q :: qs) set := by
  funext px py
  by_cases later : ((px : Int), (py : Int)) ∈ qs <;> simp [setPixels, later]

/-- `point` sets its pixel of those in the buffer (R240). -/
theorem PixelsHold.point {c : Config} {h : HostSide} {pixels : Nat → Nat → Bool} (holds : PixelsHold c h pixels)
    {rows : Nat} (content : c.val.content = .bitmap rows) (set : Bool) (q : Int × Int) :
    PixelsHold c (point set h q) (setPixels pixels [q] set) := by
  obtain ⟨rfl, wf, reads⟩ := holds
  obtain ⟨x, y⟩ := q
  by_cases inside : 0 ≤ x ∧ x < 16 * (h.block.config.val.wpl : Int) ∧ 0 ≤ y ∧ y < (rows : Int)
  · obtain ⟨xPos, col, yPos, row⟩ := inside
    lift x to Nat using xPos
    lift y to Nat using yPos
    norm_cast at col row
    have drawn := (BitmapHolds.self wf).point content col row set
    refine ⟨drawn.params, drawn.wf, fun px py inRow inRows => ?_⟩
    rw [storedPixel_point_inside content wf col row set inRow, reads px py inRow inRows]
    simp [setPixels]
  · rw [point_outside content inside]
    refine ⟨rfl, wf, fun px py inRow inRows => (reads px py inRow inRows).trans (if_neg ?_).symm⟩
    simp only [fbRowsOf, content] at inRows
    rw [List.mem_singleton, Prod.mk.injEq]
    omega

/-- A list of points sets the pixels of the list. -/
theorem PixelsHold.points {c : Config} {h : HostSide} {pixels : Nat → Nat → Bool} (holds : PixelsHold c h pixels)
    {rows : Nat} (content : c.val.content = .bitmap rows) (set : Bool) (qs : List (Int × Int)) :
    PixelsHold c (qs.foldl (Machine.point set) h) (setPixels pixels qs set) := by
  induction qs generalizing h pixels with
  | nil => exact setPixels_nil pixels set ▸ holds
  | cons q qs ih => rw [← setPixels_cons]; exact ih (holds.point content set q)

/-- The diagonal of R242. -/
theorem rasterLine_diagonal : rasterLine 0 0 9 9 = (List.range 10).map fun k : Nat => ((k : Int), (k : Int)) := by
  decide

/-- The same line from its other end. -/
theorem rasterLine_diagonal_back : rasterLine 9 9 0 0 = (rasterLine 0 0 9 9).reverse := by decide

theorem mem_diagonal_iff {px py : Nat} : ((px : Int), (py : Int)) ∈ rasterLine 0 0 9 9 ↔ px = py ∧ px ≤ 9 := by
  rw [rasterLine_diagonal, List.mem_map]
  simp only [List.mem_range, Prod.mk.injEq, Nat.cast_inj]
  exact ⟨fun ⟨k, below, col, row⟩ => by omega, fun ⟨diagonal, below⟩ => ⟨px, by omega, rfl, diagonal⟩⟩

/-- Settles O58: the points of the two lines are the same, in opposite order. -/
theorem diagonalLineIsSymmetric : Obligations.DiagonalLineIsSymmetric := by
  intro h rows content wf px py inRow row
  have inRows : py < fbRowsOf h.block.config.val := by simpa only [fbRowsOf, content] using row
  have start : PixelsHold h.block.config h (storedPixel h.block) := ⟨rfl, wf, fun _ _ _ _ => rfl⟩
  have forth := (start.points content true (rasterLine 0 0 9 9)).reads px py inRow inRows
  have back := (start.points content true (rasterLine 9 9 0 0)).reads px py inRow inRows
  have same : setPixels (storedPixel h.block) (rasterLine 9 9 0 0) true px py =
      setPixels (storedPixel h.block) (rasterLine 0 0 9 9) true px py := by
    rw [rasterLine_diagonal_back, setPixels_reverse]
  refine ⟨forth.trans ?_, (back.trans same).trans forth.symm⟩
  simp only [setPixels, mem_diagonal_iff]
  by_cases diagonal : px = py ∧ px ≤ 9 <;> simp [diagonal]

/-! ## Writing characters -/

/-- `TextHolds` with the cursor at column `x` and row `y` (R54). -/
structure TextAt (c : Config) (h : HostSide) (cells : Nat → Nat → TextCell) (x y : Nat) : Prop
    extends TextHolds c h cells where
  col : h.curCol = x
  row : h.curRow = y

/-- A character that is written as a glyph: no newline, carriage return or tab (R233). -/
def Printed (ch : Nat) : Prop := ch ≠ 0x0A ∧ ch ≠ 0x0D ∧ ch ≠ 0x09

theorem writeChar_printed {ch : Nat} (printed : Printed ch) (h : HostSide) :
    writeChar h ch = advanceCursor (writeGlyph ch h.curCol h.curRow false h) := by
  obtain ⟨newline, carriage, tab⟩ := printed
  rw [writeChar, if_neg newline, if_neg carriage, if_neg tab]

namespace TextAt

variable {c : Config} {h : HostSide} {cells : Nat → Nat → TextCell} {x y rows glyphH : Nat} {font : List Byte}

/-- `write_glyph` at the cursor sets that cell and leaves the cursor (R231). -/
theorem writeGlyph (placed : TextAt c h cells x y) (content : c.val.content = .text rows glyphH font)
    (col : x < c.val.textCols) (row : y < rows) (ch : Nat) :
    TextAt c (writeGlyph ch h.curCol h.curRow false h) (setElem cells y x ⟨false, glyphOf c.val ch⟩) x y := by
  obtain ⟨holds, rfl, rfl⟩ := placed
  have inGrid : h.curCol < h.block.config.val.textCols ∧ h.curRow < textRowsOf h.block.config.val := by
    rw [holds.params, textRowsOf, content]; exact ⟨col, row⟩
  have written := holds.cellwr (inCell_iff.mpr ⟨_, _, _, content, row, col⟩) (glyphWord false (glyphOf c.val ch))
  rw [cellOfWord_glyphWord] at written
  rw [Machine.writeGlyph, if_pos inGrid, holds.params]
  exact ⟨written, issue_curCol _ _, issue_curRow _ _⟩

/-- A glyph before the last column: the cursor goes one column on (R233). -/
theorem writeChar_inRow (placed : TextAt c h cells x y) (content : c.val.content = .text rows glyphH font)
    (col : x + 1 < c.val.textCols) (row : y < rows) {ch : Nat} (printed : Printed ch) :
    TextAt c (writeChar h ch) (setElem cells y x ⟨false, glyphOf c.val ch⟩) (x + 1) y := by
  obtain ⟨holds, atCol, atRow⟩ := placed.writeGlyph content (Nat.lt_of_succ_lt col) row ch
  rw [writeChar_printed printed, advanceCursor, holds.params, atCol, if_neg col.ne]
  exact ⟨⟨holds.params, holds.wf, holds.reads⟩, rfl, atRow⟩

/-- A glyph in the last column: the cursor goes to the first column of the next row (R233, R235). -/
theorem writeChar_wrap (placed : TextAt c h cells x y) (content : c.val.content = .text rows glyphH font)
    (col : x + 1 = c.val.textCols) (row : y + 1 < rows) {ch : Nat} (printed : Printed ch) :
    TextAt c (writeChar h ch) (setElem cells y x ⟨false, glyphOf c.val ch⟩) 0 (y + 1) := by
  obtain ⟨holds, atCol, atRow⟩ := placed.writeGlyph content (by omega) (Nat.lt_of_succ_lt row) ch
  rw [writeChar_printed printed, advanceCursor, holds.params, atCol, if_pos col, newLine, nextRow]
  simp only [holds.params, textRowsOf, content, atRow, if_neg row.ne]
  exact ⟨⟨holds.params, holds.wf, holds.reads⟩, rfl, rfl⟩

end TextAt

/-- Settles O59: a glyph in the first column, one in the last, and one in the first of the next row. -/
theorem stringWrapsAtTheLastColumn : Obligations.StringWrapsAtTheLastColumn := by
  intro h rows glyphH font a b c content wf cols twoRows printed g
  simp only [List.forall_mem_cons] at printed
  obtain ⟨aPrinted, bPrinted, cPrinted, -⟩ := printed
  have start : TextAt h.block.config { h with curCol := 0, curRow := 0 } (readCell h.block) 0 0 :=
    ⟨⟨rfl, wf, fun _ _ _ => rfl⟩, rfl, rfl⟩
  have placed : g = writeString [a, b, c] { h with curCol := 0, curRow := 0 } := by
    refine if_pos ?_
    rw [cols, textRowsOf, content]
    exact ⟨Nat.two_pos, Nat.lt_of_lt_of_le Nat.two_pos twoRows⟩
  have written := ((start.writeChar_inRow content (by omega) (by omega) aPrinted).writeChar_wrap content (by omega)
    (by omega) bPrinted).writeChar_inRow content (by omega) (by omega) cPrinted
  rw [show writeChar (writeChar (writeChar _ a) b) c = g from placed.symm] at written
  obtain ⟨⟨-, -, reads⟩, col, row⟩ := written
  refine ⟨?_, ?_, ?_, ?_, fun y x below _ inRow => ?_, col, row⟩
  · rw [reads 0 0 (by decide)]; simp [setElem]
  · rw [reads 0 1 (by decide)]; simp [setElem]
  · rw [reads 1 0 (by decide)]; simp [setElem]
  · rw [reads 1 1 (by decide)]; simp [setElem]
  · rw [reads y x (by omega)]
    have notFirst : y ≠ 0 := by omega
    have notSecond : y ≠ 1 := by omega
    simp [setElem, notFirst, notSecond]

end Sys2Proof.Machine
end

section
/-! SUPPORT. When an operation completes (R17, R264), and the ghost bit `MISS` (R51, R266): who writes it, and that no
operation reads it. -/

namespace Sys2Proof.Machine

/-! ## Enabled operations complete, and no others -/

/-- The three services of the block are guarded by their enabling conditions; the other operations have no guard. -/
theorem exec_of_enabled {i : Instr} {s : State} (isEnabled : enabled i s = true) : ∃ t, exec i s = .next t := by
  cases i with
  | eva => exact ⟨_, exec_eva_next.mpr ⟨isEnabled, rfl⟩⟩
  | evb => exact ⟨_, exec_evb_next.mpr ⟨isEnabled, rfl⟩⟩
  | outw => exact ⟨_, exec_outw_next.mpr ⟨isEnabled, rfl⟩⟩
  | _ => exact ⟨_, rfl⟩

theorem exec_of_not_enabled {i : Instr} {s : State} (notEnabled : enabled i s = false) :
    exec i s = .refused (.notEnabled i) := by
  cases i with
  | eva | evb | outw => exact if_neg (Bool.eq_false_iff.mp notEnabled)
  | _ => cases notEnabled

theorem exec_completes_iff (i : Instr) (s : State) : (∃ t, exec i s = .next t) ↔ enabled i s = true := by
  refine ⟨fun ⟨t, completes⟩ => ?_, exec_of_enabled⟩
  by_contra notEnabled
  rw [exec_of_not_enabled (Bool.eq_false_iff.mpr notEnabled)] at completes
  cases completes

theorem exec_refused_iff {i : Instr} {s : State} {r : Refusal} :
    exec i s = .refused r ↔ enabled i s = false ∧ r = .notEnabled i := by
  cases isEnabled : enabled i s with
  | false => simp [exec_of_not_enabled isEnabled, eq_comm]
  | true =>
    obtain ⟨t, completes⟩ := exec_of_enabled isEnabled
    simp [completes]

/-- Every operation but the three services is always enabled (R17). -/
theorem enabled_of_not_service {i : Instr} {s : State} (notEva : i ≠ .eva) (notEvb : i ≠ .evb) (notOutw : i ≠ .outw) :
    enabled i s = true := by
  cases i with
  | eva | evb | outw => contradiction
  | _ => rfl

/-- Settles O9: an operation completes exactly when it is enabled, and is refused otherwise. -/
theorem operationsCompleteExactlyWhenEnabled : Obligations.OperationsCompleteExactlyWhenEnabled := by
  intro s
  refine ⟨(exec_completes_iff .eva s).trans (evaEnabled_iff s), (exec_completes_iff .evb s).trans (evbEnabled_iff s),
    (exec_completes_iff .outw s).trans (outwEnabled_iff s), fun i => ⟨fun notEva notEvb notOutw => ?_, ?_⟩⟩
  · exact exec_of_enabled (enabled_of_not_service notEva notEvb notOutw)
  · cases isEnabled : enabled i s with
    | false => exact .inr (exec_of_not_enabled isEnabled)
    | true => exact .inl (exec_of_enabled isEnabled)

/-! ## Who writes `MISS` -/

/-- A pixel clock of a running block adds the broken deadlines of the events it raises (R266). -/
theorem exec_pclk_miss {s t : State} (run : s.control.run = true) (h : exec .pclk s = .next t) :
    t.miss = (s.miss || (decide (nextHcnt s = 0) && missAtA s) ||
      (decide (nextHcnt s = s.timing.hDataStart.toNat) && (s.timer.pendA || decide (nextHcnt s = 0)))) := by
  obtain ⟨-, whole⟩ := pixelClockAdvancesTheTimer s
  cases h.symm.trans (whole run)
  rfl

theorem exec_pclk_miss_stopped {s t : State} (stopped : s.control.run = false) (h : exec .pclk s = .next t) :
    t.miss = s.miss := by
  obtain ⟨whole, -⟩ := pixelClockAdvancesTheTimer s
  cases h.symm.trans (whole stopped)
  rfl

/-- Only a `START` that starts the block clears `MISS` (R216, R266). -/
theorem exec_start_miss {s t : State} (h : exec .start s = .next t) :
    t.miss = if s.control.run = false ∧ t.control.run = true then false else s.miss := by
  by_cases started : s.control.run = false ∧ t.control.run = true
  · obtain ⟨-, -, rfl⟩ := exec_start_started h started.1 started.2
    exact (if_pos started).symm
  · rw [if_neg started, (exec_start_hostFrame h started).miss]

theorem exec_keeps_miss {i : Instr} {s t : State} (notPclk : i ≠ .pclk) (notReset : i ≠ .reset)
    (notStart : i ≠ .start) (h : exec i s = .next t) : t.miss = s.miss := by
  cases i with
  | pclk | reset | start => contradiction
  | eva => exact (exec_eva_frame h).miss
  | evb | outw => exact (exec_clockOut_frame rfl h).miss
  | _ => exact (exec_host_frame rfl (by simp) h).miss

/-! ## `MISS` is no input of an operation -/

/-- `s` with another ghost bit. -/
def withMiss (s : State) (m : Bool) : State := { s with miss := m }

theorem enabled_withMiss (i : Instr) (s : State) (m : Bool) : enabled i (withMiss s m) = enabled i s := by
  cases i <;> rfl

theorem shiftTick_withMiss (s : State) (m : Bool) : shiftTick (withMiss s m) = withMiss (shiftTick s) m := by
  rw [shiftTick_eq, shiftTick_eq]; rfl

/-- The timer adds to the ghost bit, so the bit afterwards may differ too (R201, R266). -/
theorem timerTick_withMiss (s : State) (m : Bool) : ∃ m', timerTick (withMiss s m) = withMiss (timerTick s) m' := by
  cases run : s.control.run with
  | false => exact ⟨m, by rw [timerTick_stopped s run, timerTick_stopped (withMiss s m) run]⟩
  | true => rw [timerTick_eq s run, timerTick_eq (withMiss s m) run]; exact ⟨_, rfl⟩

theorem showLine_withMiss (s : State) (m : Bool) : showLine (withMiss s m) = withMiss (showLine s) m := by
  unfold showLine; rw [apply_ite (withMiss · m)]; rfl

theorem serviceA_withMiss (s : State) (m : Bool) : serviceA (withMiss s m) = withMiss (serviceA s) m := by
  have upToShow : driveVsync (advanceLine (acknowledgeA (withMiss s m))) =
      withMiss (driveVsync (advanceLine (acknowledgeA s))) m := by
    rw [driveVsync_eq, driveVsync_eq, advanceLine_eq, advanceLine_eq]; rfl
  rw [serviceA, upToShow, showLine_withMiss, serviceA]

theorem serviceB_withMiss (s : State) (m : Bool) : serviceB (withMiss s m) = withMiss (serviceB s) m := by
  rw [serviceB_eq, serviceB_eq]; rfl

theorem emitWord_withMiss (s : State) (m : Bool) : emitWord (withMiss s m) = withMiss (emitWord s) m := by
  rw [emitWord_eq, emitWord_eq]; rfl

theorem configure_withMiss (s : State) (c : FrameTiming) (m : Bool) :
    configure (withMiss s m) c = withMiss (configure s c) m := by
  rw [configure_eq, configure_eq]; rfl

theorem portWriteFb_withMiss (s : State) (x y z : Word) (m : Bool) :
    portWriteFb (withMiss s m) x y z = withMiss (portWriteFb s x y z) m := by
  unfold portWriteFb; rw [apply_ite (withMiss · m)]; rfl

theorem portWriteCell_withMiss (s : State) (x y z : Word) (m : Bool) :
    portWriteCell (withMiss s m) x y z = withMiss (portWriteCell s x y z) m := by
  unfold portWriteCell; rw [apply_ite (withMiss · m)]; rfl

/-- `START` clears the ghost bit or leaves it, by tests that do not read it (R207, R215). -/
theorem exec_start_withMiss {s t : State} (m : Bool) (h : exec .start s = .next t) :
    ∃ m', exec .start (withMiss s m) = .next (withMiss t m') := by
  rw [exec_start, show setupOpen (withMiss s m) = setupOpen s from rfl]
  obtain ⟨closed, rfl⟩ | ⟨hopen, failed, rfl⟩ | ⟨hopen, passed, rfl⟩ := exec_start_cases h
  · rw [closed]; exact ⟨m, rfl⟩
  · rw [if_pos hopen, startChecked, if_neg (by exact failed)]; exact ⟨m, rfl⟩
  · rw [if_pos hopen, startChecked, if_pos (by exact passed)]; exact ⟨false, rfl⟩

/-- The answer to the host is a field beside the ghost bit (R101). -/
theorem next_answer_of_eq_withMiss {s t : State} {m : Bool} (h : s = withMiss t m) (r : Option HostResult) :
    ∃ m', (.next (answer s r) : Host.Outcome State Fault Refusal) = .next (withMiss (answer t r) m') :=
  ⟨m, by rw [h]; rfl⟩

/-- An operation that completes does the same with another ghost bit, but for that bit (R266). -/
theorem exec_withMiss {i : Instr} {s t : State} (m : Bool) (h : exec i s = .next t) :
    ∃ m', exec i (withMiss s m) = .next (withMiss t m') := by
  cases i with
  | reset => cases h; exact ⟨false, rfl⟩
  | pclk =>
    cases h
    obtain ⟨m', ticked⟩ := timerTick_withMiss (shiftTick s) m
    rw [exec_pclk, shiftTick_withMiss]
    exact next_answer_of_eq_withMiss ticked none
  | eva =>
    obtain ⟨isEnabled, rfl⟩ := exec_eva_next.mp h
    exact ⟨m, exec_eva_next.mpr ⟨isEnabled, by rw [serviceA_withMiss]; rfl⟩⟩
  | evb =>
    obtain ⟨isEnabled, rfl⟩ := exec_evb_next.mp h
    exact ⟨m, exec_evb_next.mpr ⟨isEnabled, by rw [serviceB_withMiss]; rfl⟩⟩
  | outw =>
    obtain ⟨isEnabled, rfl⟩ := exec_outw_next.mp h
    exact ⟨m, exec_outw_next.mpr ⟨isEnabled, by rw [emitWord_withMiss]; rfl⟩⟩
  | cfgh | cfgv | cfgf => cases h; exact next_answer_of_eq_withMiss (configure_withMiss s _ m) none
  | start => exact exec_start_withMiss m h
  | fbwr x y z => cases h; exact next_answer_of_eq_withMiss (portWriteFb_withMiss s x y z m) none
  | cellwr x y z => cases h; exact next_answer_of_eq_withMiss (portWriteCell_withMiss s x y z m) none
  | csenter | csexit | rdfc | fbrd | cellrd => cases h; exact ⟨m, rfl⟩

/-- Settles O40: the writers of `MISS` one by one, then the two outcomes of an operation under another ghost bit. -/
theorem missRecordsEveryBrokenDeadline : Obligations.MissRecordsEveryBrokenDeadline := by
  intro i s
  refine ⟨fun t h => ⟨?_, ?_, ?_, ?_, fun notPclk notReset notStart => exec_keeps_miss notPclk notReset notStart h⟩,
    fun m => ⟨fun t h => exec_withMiss m h, fun r h => ?_⟩⟩
  · rintro rfl run
    rw [exec_pclk_miss run h, nextHcnt]
    simp only [missAtA, Bool.or_eq_true, Bool.and_eq_true, decide_eq_true_eq, and_or_left, or_assoc]
  · rintro rfl stopped
    exact exec_pclk_miss_stopped stopped h
  · rintro rfl
    rw [exec_reset_next.mp h]; rfl
  · rintro rfl
    exact exec_start_miss h
  · obtain ⟨notEnabled, rfl⟩ := exec_refused_iff.mp h
    exact exec_of_not_enabled ((enabled_withMiss i s m).trans notEnabled)

end Sys2Proof.Machine
end

section
/-! SUPPORT. The end of a drain (R313), at which no service is enabled; and the stopped block (R37, R291), which is dark over
a whole run. -/

namespace Sys2Proof.Machine

/-- A refused operation gives no next state. -/
theorem exec_ne_next_of_not_enabled {i : Instr} {s : State} (notEnabled : enabled i s = false) (v : State) :
    exec i s ≠ .next v := by
  rw [exec_of_not_enabled notEnabled]; nofun

/-- Settles O51: the services left bound the drain, and it ends where none is enabled. -/
theorem drainEnds : Obligations.DrainEnds := by
  intro s
  obtain ⟨t, drained, ended, -⟩ := drain_ends (kept := fun _ => True) (fun _ _ _ => trivial) (s := s) trivial
  obtain ⟨noEva, noEvb, noOutw⟩ := nextService_eq_none_iff.mp ended
  exact ⟨t, drained, exec_ne_next_of_not_enabled noEva, exec_ne_next_of_not_enabled noEvb,
    exec_ne_next_of_not_enabled noOutw⟩

/-- A run of operations keeps the invariant of the block. -/
theorem runOps_keeps_inv {ops : List Instr} {s t : State} (inv : Inv s) (h : runOps ops s = .next t) : Inv t := by
  induction ops generalizing s with
  | nil => cases h; exact inv
  | cons i is ih =>
    obtain ⟨u, first, rest⟩ := runOps_cons_next.mp h
    exact ih (exec_keeps_inv inv first) rest

/-- Every sample of an output trace is taken in the state that a first part of the operations leads to (R8). -/
theorem mem_outputTrace {ops : List Instr} {s : State} {x : Sample} (taken : x ∈ outputTrace ops s) :
    ∃ pre post u, pre ++ post = ops ∧ runOps pre s = .next u ∧ x = sample u := by
  induction ops generalizing s with
  | nil => cases taken
  | cons i is ih =>
    cases first : exec i s with
    | fault r | refused r => simp [outputTrace, first] at taken
    | next t =>
      have now_or_later : x = sample t ∨ x ∈ outputTrace is t := by
        simp only [outputTrace, first] at taken
        split at taken
        · exact List.mem_cons.mp taken
        · exact .inr taken
      obtain now | later := now_or_later
      · exact ⟨[i], is, t, rfl, runOps_cons_next.mpr ⟨t, first, rfl⟩, now⟩
      · obtain ⟨pre, post, u, parts, run, here⟩ := ih later
        exact ⟨i :: pre, post, u, congrArg (i :: ·) parts, runOps_cons_next.mpr ⟨t, first, run⟩, here⟩

/-- A stopped block is dark, with both sync outputs deasserted (R37). -/
theorem Inv.sample_stopped {s : State} (inv : Inv s) (stopped : s.control.run = false) :
    sample s = ⟨false, false, false⟩ := by
  have idle := inv.stopped stopped
  simp [sample, hsync, stopped, idle.seqZero, idle.shifterZero]

/-- Settles O43: each sample is taken in a state of the invariant in which the block is stopped. -/
theorem stoppedBlockIsDark : Obligations.StoppedBlockIsDark := by
  intro ops s stopped x taken
  have afterReset : x ∈ outputTrace ops (resetBlock s) := taken
  obtain ⟨pre, post, u, parts, run, rfl⟩ := mem_outputTrace afterReset
  have inv : Inv u := runOps_keeps_inv (inv_powerOn s.config _ _) run
  exact inv.sample_stopped (stopped pre u ⟨post, parts⟩ run)

end Sys2Proof.Machine
end

section
/-! SUPPORT. Missed deadlines under the eager schedule (R266, R307, R314): a drained block on schedule breaks none. -/

namespace Sys2Proof.Machine

variable {c : Config} {tm : FrameTiming} {s t : State}

/-- While a line is clocked out, pixels of it are still to be shown. -/
theorem Drained.nextPixel_lt_of_emitting (drained : Drained c tm s) (emitting : s.out.emitting = true) :
    nextPixel s < 16 * s.config.val.wpl := by
  by_contra past
  have nothing : lineBits s = [] := drained.bitsInPlace.trans (pixelsFrom_of_ge (Nat.le_of_not_lt past))
  exact drained.fed emitting (List.append_eq_nil_iff.mp nothing).1

/-- The clock-out of a line is over before the line ends (R307). -/
theorem Drained.idle_at_lineEnd (drained : Drained c tm s) (lineEnd : nextHcnt s = 0) : s.out.emitting = false := by
  refine Bool.eq_false_iff.mpr fun emitting => ?_
  have shown := drained.nextPixel_lt_iff.mp (drained.nextPixel_lt_of_emitting emitting)
  omega

/-- A pixel clock of a drained block breaks no deadline: at the period match no event waits and nothing is clocked out, and
at the data start the event of the line's beginning has been served (R266). -/
theorem Drained.pclk_keeps_miss (drained : Drained c tm s) (h : exec .pclk s = .next t) : t.miss = s.miss := by
  have dataStart := drained.dataStart
  have atWrap : (decide (nextHcnt s = 0) && missAtA s) = false := by
    by_cases lineEnd : nextHcnt s = 0
    · simp [missAtA, drained.noPendA, drained.noPendB, drained.idle_at_lineEnd lineEnd]
    · simp [lineEnd]
  have atDataStart : (decide (nextHcnt s = s.timing.hDataStart.toNat) &&
      (s.timer.pendA || decide (nextHcnt s = 0))) = false := by
    simp only [drained.noPendA, Bool.false_or, Bool.and_eq_false_iff, decide_eq_false_iff_not]
    omega
  rw [exec_pclk_miss drained.run h, atWrap, atDataStart, Bool.or_false, Bool.or_false]

/-- The pixel clock and the host break no deadline of a drained block. -/
theorem Drained.exec_keeps_miss {i : Instr} (drained : Drained c tm s) (agent : i.agent = .ht ∨ i.agent = .host)
    (h : exec i s = .next t) : t.miss = s.miss := by
  obtain timer | host := agent
  · obtain rfl : i = .pclk := by cases i <;> simp [Instr.agent] at timer ⊢
    exact drained.pclk_keeps_miss h
  · exact (exec_host_frame host (by simp [drained.run]) h).miss

/-- The services of a drain break no deadline: only the timer finds one broken (R266). -/
theorem drain_keeps_miss (h : drain s = .next t) : t.miss = s.miss := by
  have keeps {i : Instr} {u v : State} (due : nextService u = some i) (served : exec i u = .next v)
      (kept : u.miss = s.miss) : v.miss = s.miss := by
    refine Eq.trans ?_ kept
    obtain ⟨rfl, -⟩ | ⟨rfl, -⟩ | ⟨rfl, -⟩ := nextService_eq_some due <;>
      exact Machine.exec_keeps_miss (by simp) (by simp) (by simp) served
  obtain ⟨u, drained, -, kept⟩ := drain_ends keeps rfl
  obtain rfl : u = t := Host.Outcome.next.inj (drained.symm.trans h)
  exact kept

/-- After an operation the drain that follows it leaves the ghost bit. -/
theorem eagerStep_miss {i : Instr} (h : eagerStep i s = .next t) : ∃ u, exec i s = .next u ∧ t.miss = u.miss := by
  obtain ⟨u, first, services⟩ := eagerStep_next.mp h
  refine ⟨u, first, ?_⟩
  cases opens : opensDrain i with
  | true => simp only [servicesAfter, opens, if_true] at services; exact drain_keeps_miss services
  | false => simp only [servicesAfter, opens] at services; cases services; rfl

/-- A block on schedule breaks no deadline over any run of the timer and the host (R314). -/
theorem Drained.eagerRun_keeps_miss {ops : List Instr} (drained : Drained c tm s)
    (agents : ∀ i ∈ ops, i.agent = .ht ∨ i.agent = .host) (never : neverHeldAtPclk s.control.hold ops = true)
    (h : eagerRun ops s = .next t) : t.miss = s.miss := by
  induction ops generalizing s with
  | nil => cases h; rfl
  | cons i is ih =>
    obtain ⟨v, stepped, rest⟩ := eagerRun_cons_next.mp h
    obtain ⟨agent, agentsLater⟩ := List.forall_mem_cons.mp agents
    obtain ⟨u, first, services⟩ := eagerStep_miss stepped
    obtain ⟨drained', neverLater⟩ := drained.after_eagerStep agent never stepped
    calc t.miss = v.miss := ih drained' agentsLater neverLater rest
      _ = u.miss := services
      _ = s.miss := drained.exec_keeps_miss agent first

/-- Settles O52: the start state is on schedule with `MISS` clear, and a block on schedule breaks no deadline. -/
theorem eagerScheduleMissesNoDeadline : Obligations.EagerScheduleMissesNoDeadline := by
  intro ops s s0 t start stopped started dataStart fits agents never eager
  obtain ⟨-, -, rfl⟩ := exec_start_started start stopped started
  exact (drained_startState s _ dataStart fits).eagerRun_keeps_miss agents never eager

end Sys2Proof.Machine
end

section
/-! SUPPORT. The scanline period (R202, R310): `HCNT` of a running block counts its pixel clocks modulo `H_TOTAL`, so the
samples of one period meet each of its values once. -/

namespace Sys2Proof.Machine

/-! ## The pixel clocks of a run -/

/-- The block runs with the registers `tm`, and `HCNT` is the number `n` of its pixel clock modulo `H_TOTAL` (R34, R201). -/
structure AtClock (tm : FrameTiming) (n : Nat) (s : State) : Prop where
  run : s.control.run = true
  timing : s.timing = tm
  hcnt : s.timer.hcnt.toNat = n % tm.hTotal.toNat

section
variable {tm : FrameTiming} {n : Nat} {s t : State}

/-- `HSYNC` is 1 on the first `H_SYNC_END` clocks of each period (R36). -/
theorem AtClock.hsync_eq (atClock : AtClock tm n s) :
    hsync s = decide (n % tm.hTotal.toNat < tm.hSyncEnd.toNat) := by
  simp [hsync, atClock.run, atClock.timing, atClock.hcnt]

/-- Besides the pixel clock only `START` and `RESET` write `HCNT`, and no `START` starts a running block (R34, R210). -/
theorem exec_running_hcnt {i : Instr} (run : s.control.run = true) (notReset : i ≠ .reset) (notPclk : i ≠ .pclk)
    (h : exec i s = .next t) : t.timer.hcnt = s.timer.hcnt := by
  cases i with
  | reset | pclk => contradiction
  | eva => exact (exec_eva_frame h).hcnt
  | evb | outw => exact (exec_clockOut_frame rfl h).hcnt
  | _ => exact congrArg HTimer.hcnt (exec_host_frame rfl (by simp [run]) h).timer

/-- The wrap of `HCNT` is the successor modulo `H_TOTAL` (R201). -/
theorem nextHcnt_eq_mod (below : s.timer.hcnt.toNat < s.timing.hTotal.toNat) :
    nextHcnt s = (s.timer.hcnt.toNat + 1) % s.timing.hTotal.toNat := by
  unfold nextHcnt
  split
  · next wraps => rw [wraps, Nat.mod_self]
  · exact (Nat.mod_eq_of_lt (by omega)).symm

/-- A pixel clock takes the count on by one; every other operation but `RESET` leaves it. -/
theorem AtClock.after {i : Instr} (atClock : AtClock tm n s) (someClock : 0 < tm.hTotal.toNat) (notReset : i ≠ .reset)
    (h : exec i s = .next t) : AtClock tm (n + if i = .pclk then 1 else 0) t := by
  refine ⟨exec_running_run atClock.run notReset h, (exec_running_timing atClock.run notReset h).trans atClock.timing, ?_⟩
  split
  · next isPclk =>
    subst isPclk
    have below : s.timer.hcnt.toNat < s.timing.hTotal.toNat := by
      rw [atClock.hcnt, atClock.timing]; exact Nat.mod_lt n someClock
    rw [exec_pclk_hcnt atClock.run below h, nextHcnt_eq_mod below, atClock.hcnt, atClock.timing, Nat.mod_add_mod]
  · next notPclk => rw [exec_running_hcnt atClock.run notReset notPclk h, atClock.hcnt, Nat.add_zero]

/-- The samples of a list of operations are that of its first one, if it is a pixel clock, and those of the rest (R8). -/
theorem outputTrace_cons {i : Instr} {is : List Instr} (h : exec i s = .next t) :
    outputTrace (i :: is) s = if i = .pclk then sample t :: outputTrace is t else outputTrace is t := by
  simp only [outputTrace, h]

/-- The samples of a run without `RESET` are those of successive clocks, and the run ends at the clock after them. -/
theorem AtClock.after_run {ops : List Instr} (atClock : AtClock tm n s) (someClock : 0 < tm.hTotal.toNat)
    (h : runOps ops s = .next t) (noReset : .reset ∉ ops) :
    AtClock tm (n + ops.count .pclk) t ∧
      (outputTrace ops s).map Sample.hsync =
        (List.range' (n + 1) (ops.count .pclk)).map fun k => decide (k % tm.hTotal.toNat < tm.hSyncEnd.toNat) := by
  induction ops generalizing n s with
  | nil => cases h; exact ⟨atClock, rfl⟩
  | cons i is ih =>
    obtain ⟨u, notReset, first, noResetLater, rest⟩ := runOps_cons_noReset h noReset
    have atClock' := atClock.after someClock notReset first
    obtain ⟨ended, samples⟩ := ih atClock' rest noResetLater
    rw [outputTrace_cons first]
    by_cases isPclk : i = .pclk
    · subst isPclk
      rw [if_pos rfl] at atClock' ended samples
      have here : (sample u).hsync = _ := atClock'.hsync_eq
      rw [List.count_cons_self, Nat.add_comm _ 1, ← Nat.add_assoc, Nat.add_comm 1, List.range'_succ]
      exact ⟨ended, by simp [here, samples]⟩
    · rw [if_neg isPclk] at ended samples
      rw [List.count_cons_of_ne isPclk, if_neg isPclk]
      exact ⟨ended, samples⟩

end

/-! ## One period -/

/-- The remainders of `total` successive numbers are all the numbers below `total`, in some order. -/
theorem map_mod_range'_perm (n total : Nat) : ((List.range' n total).map (· % total)).Perm (List.range total) := by
  have remainders := Nat.multiset_Ico_map_mod n total
  rw [Multiset.Ico, Nat.Ico_eq_range'] at remainders
  simpa using Multiset.coe_eq_coe.mp remainders

/-- Among `total` successive numbers, those whose remainder is below `e` are `e` many. -/
theorem countP_mod_lt_range' {e total : Nat} (fits : e ≤ total) (n : Nat) :
    ((List.range' n total).map fun k => decide (k % total < e)).countP id = e := by
  have periodOfOnes := (map_mod_range'_perm n total).map fun k => decide (k < e)
  rw [List.map_map, map_vsync_lines fits] at periodOfOnes
  refine (periodOfOnes.countP_eq id).trans ?_
  simp [List.countP_replicate]

/-- Settles O46: the `H_TOTAL` pixel clocks of the run are a whole period of the count. -/
theorem linePeriodIsHTotalClocks : Obligations.LinePeriodIsHTotalClocks := by
  intro ops s t inv run h noReset clocks
  have raster := inv.running run
  have someClock := hTotal_pos_of_valid raster.timingValid
  have atClock : AtClock s.timing s.timer.hcnt.toNat s := ⟨run, rfl, (Nat.mod_eq_of_lt raster.hcntBelowTotal).symm⟩
  obtain ⟨ended, samples⟩ := atClock.after_run someClock h noReset
  rw [clocks] at ended samples
  constructor
  · apply BitVec.eq_of_toNat_eq
    rw [ended.hcnt, Nat.add_mod_right, Nat.mod_eq_of_lt raster.hcntBelowTotal]
  · have syncFits : s.timing.hSyncEnd.toNat ≤ s.timing.hTotal.toNat := by
      obtain ⟨-, -, offsets, -⟩ := (checkMask_eq_zero _ _).mp raster.timingValid
      rw [← Bool.not_eq_true, badOffset_iff] at offsets
      omega
    calc (outputTrace ops s).countP (fun x => x.hsync)
        = ((outputTrace ops s).map Sample.hsync).countP id := by rw [List.countP_map]; rfl
      _ = s.timing.hSyncEnd.toNat := by rw [samples]; exact countP_mod_lt_range' syncFits _

end Sys2Proof.Machine
end

section
/-! SUPPORT. The line buffer after a service of event A (R83, R293): what `EVA` renders stays until the next one. -/

namespace Sys2Proof.Machine

/-- The line that a service of event A shows is the one it renders; the stores and registers it renders from are those it
leaves (R120, R140). -/
theorem exec_eva_rendered {s t : State} {i : Word} (h : exec .eva s = .next t) (visible : t.seq.visibleLine = some i) :
    t.rl = renderLine t i.toNat := by
  have frame := exec_eva_frame h
  have own := exec_next_sameOwnFields (by simp) h
  have fromSame (k : Nat) : renderLine s k = renderLine t k :=
    renderLine_congr frame.timing.symm frame.fb.symm frame.cell.symm own.config.symm own.draw.symm k
  obtain ⟨shown, hidden⟩ := evaShowsTheVisibleLine s t h
  by_cases inBand : s.timing.vSync.toNat + s.timing.vBack.toNat ≤ t.seq.line.toNat ∧
      t.seq.line.toNat < s.timing.vSync.toNat + s.timing.vBack.toNat + s.timing.vVisible.toNat
  · obtain ⟨index, rendered, -⟩ := shown inBand
    obtain rfl := Option.some.inj (index.symm.trans visible)
    have narrow : t.seq.line.toNat - (s.timing.vSync.toNat + s.timing.vBack.toNat) < 2 ^ 16 :=
      (Nat.sub_le _ _).trans_lt t.seq.line.isLt
    rw [rendered, fromSame, BitVec.toNat_ofNat, Nat.mod_eq_of_lt narrow]
  · simp [(hidden inBand).1] at visible

/-- A run that is observed in no state has no service of event A in it. -/
theorem noEva_of_statesAfterEva_eq_nil {ops : List Instr} {s t : State} (h : runOps ops s = .next t)
    (unobserved : statesAfterEva ops s = []) : .eva ∉ ops := by
  induction ops generalizing s with
  | nil => exact List.not_mem_nil
  | cons i is ih =>
    obtain ⟨u, first, rest⟩ := runOps_cons_next.mp h
    rw [statesAfterEva_cons first] at unobserved
    split at unobserved
    · cases unobserved
    · next notEva => exact List.not_mem_cons_of_ne_of_not_mem (Ne.symm notEva) (ih rest unobserved)

/-- The last service of event A of a run stands between a first part of it and a rest without any. -/
theorem runOps_split_at_last_eva {ops : List Instr} {s t u : State} (h : runOps ops s = .next t)
    (last : (statesAfterEva ops s).getLast? = some u) :
    ∃ pre post v, pre ++ .eva :: post = ops ∧ exec .eva v = .next u ∧ .eva ∉ post ∧ runOps post u = .next t := by
  induction ops generalizing s with
  | nil => cases last
  | cons i is ih =>
    obtain ⟨w, first, rest⟩ := runOps_cons_next.mp h
    rw [statesAfterEva_cons first] at last
    cases later : (statesAfterEva is w).getLast? with
    | some x =>
      obtain rfl : x = u := by split at last <;> simpa [List.getLast?_cons, later] using last
      obtain ⟨pre, post, v, parts, served⟩ := ih rest later
      exact ⟨i :: pre, post, v, congrArg (i :: ·) parts, served⟩
    | none =>
      have unobserved := List.getLast?_eq_none_iff.mp later
      rw [unobserved] at last
      split at last
      · next isEva =>
        subst isEva
        obtain rfl : w = u := Option.some.inj last
        exact ⟨[], is, s, rfl, first, noEva_of_statesAfterEva_eq_nil rest unobserved, rest⟩
      · cases last

/-- In a running block, a run without `EVA` and `RESET` leaves the sequencer and the line buffer (R50, R80). -/
theorem runOps_keeps_line {ops : List Instr} {s t : State} (run : s.control.run = true) (h : runOps ops s = .next t)
    (noEva : .eva ∉ ops) (noReset : .reset ∉ ops) : t.seq = s.seq ∧ t.rl = s.rl ∧ t.config = s.config := by
  induction ops generalizing s with
  | nil => cases h; exact ⟨rfl, rfl, rfl⟩
  | cons i is ih =>
    obtain ⟨u, notReset, first, noResetLater, rest⟩ := runOps_cons_noReset h noReset
    obtain ⟨notEva, noEvaLater⟩ := not_or.mp (mt List.mem_cons.mpr noEva)
    obtain ⟨seq, rl, config⟩ := ih (exec_running_run run notReset first) rest noEvaLater noResetLater
    exact ⟨seq.trans (exec_running_seq run notReset (Ne.symm notEva) first),
      rl.trans (exec_keeps_rl (Ne.symm notEva) notReset first),
      config.trans (exec_next_sameOwnFields notReset first).config⟩

/-- Settles O48: the last service renders the line it shows, and the run after it leaves both. -/
theorem lineBufferIsTheLastRender : Obligations.LineBufferIsTheLastRender := by
  intro ops s t u i _ h noReset last visible
  obtain ⟨pre, post, v, parts, served, noEva, rest⟩ := runOps_split_at_last_eva h last
  obtain ⟨enabled, -⟩ := exec_eva_next.mp served
  have running : u.control.run = true := by
    rw [(exec_eva_frame served).control]; exact ((evaEnabled_iff v).mp enabled).1
  have noResetAfter : .reset ∉ post := fun later => noReset (parts ▸ by simp [later])
  obtain ⟨seq, kept, config⟩ := runOps_keeps_line running rest noEva noResetAfter
  rw [seq] at visible
  have rendered := exec_eva_rendered served visible
  rw [kept, config, rendered]
  exact ⟨visible, rfl, renderLine_length u _⟩

end Sys2Proof.Machine
end

section
/-! SUPPORT. The setup sequence (R294, R295): what an issued operation keeps of a block that is being set up, and what the
four operations after `clear()` make of it. -/

namespace Sys2Proof.Machine

/-! ## A block that is being set up -/

/-- The block has the parameters `c` and the invariant, and its setup is open (R207). -/
structure InSetup (c : Config) (h : HostSide) : Prop where
  params : h.block.config = c
  inv : Inv h.block
  isOpen : setupOpen h.block = true

/-- Only `START` and `RESET` write `RUN` and `CFGERR` (R37, R39), so nothing else closes the setup or opens it. -/
theorem exec_keeps_setupOpen {i : Instr} {s t : State} (notReset : i ≠ .reset) (notStart : i ≠ .start)
    (h : exec i s = .next t) : setupOpen t = setupOpen s := by
  cases i with
  | reset | start => contradiction
  | csenter | csexit => cases h; rfl
  | _ => rw [setupOpen, exec_keeps_control (by simp) (by simp) (by simp) (by simp) h, setupOpen]

namespace InSetup

variable {c : Config} {h : HostSide}

/-- Every operation but `START` and `RESET` may be issued during setup. -/
theorem issue (inSetup : InSetup c h) {i : Instr} (notReset : i ≠ .reset) (notStart : i ≠ .start) :
    InSetup c (issue h i) := by
  cases completed : exec i h.block with
  | next t =>
    rw [issue_next completed]
    exact ⟨(exec_next_sameOwnFields notReset completed).config.trans inSetup.params,
      exec_keeps_inv inSetup.inv completed,
      (exec_keeps_setupOpen notReset notStart completed).trans inSetup.isOpen⟩
  | fault r | refused r => rwa [Machine.issue, completed]

/-- A loop keeps the setup open when each pass does. -/
theorem foldl {β : Type} {f : HostSide → β → HostSide} (each : ∀ g b, InSetup c g → InSetup c (f g b)) (bs : List β)
    (inSetup : InSetup c h) : InSetup c (bs.foldl f h) := by
  induction bs generalizing h with
  | nil => exact inSetup
  | cons b bs ih => exact ih (each h b inSetup)

/-- `clear()` issues the two bounds of a critical section and writes to the store (R238). -/
theorem clear (inSetup : InSetup c h) : InSetup c (clear h) := by
  unfold Machine.clear withCs
  refine .issue ?_ (by simp) (by simp)
  have entered : InSetup c (Machine.issue h .csenter) := inSetup.issue (by simp) (by simp)
  split
  · exact entered.foldl (fun _ _ => .foldl (fun _ _ inLoop => inLoop.issue (by simp) (by simp)) _) _
  · exact entered.foldl (fun _ _ => .foldl (fun _ _ inLoop => inLoop.issue (by simp) (by simp)) _) _

end InSetup

/-- Right after `RESET` the setup is open (R53). -/
theorem inSetup_reset (s : State) : InSetup s.config (hostStart (resetBlock s)) :=
  ⟨rfl, inv_powerOn s.config _ _, rfl⟩

/-! ## The configuration -/

/-- The three configuration operations of the setup sequence (R294). -/
def configureAll (t : FrameTiming) (h : HostSide) : HostSide :=
  issue (issue (issue h (.cfgh t.hTotal t.hSyncEnd t.hDataStart)) (.cfgv t.vSync t.vBack t.vVisible))
    (.cfgf t.vFront t.vTotal t.vScale)

theorem setup_eq (t : FrameTiming) (h : HostSide) : setup t h = issue (configureAll t (clear h)) .start := rfl

theorem InSetup.configureAll {c : Config} {h : HostSide} (inSetup : InSetup c h) (t : FrameTiming) :
    InSetup c (configureAll t h) :=
  ((inSetup.issue (by simp) (by simp)).issue (by simp) (by simp)).issue (by simp) (by simp)

theorem issue_cfgh_block {h : HostSide} (isOpen : setupOpen h.block = true) (x y z : Word) :
    (issue h (.cfgh x y z)).block =
      { h.block with timing := { h.block.timing with hTotal := x, hSyncEnd := y, hDataStart := z }, result := none } := by
  obtain ⟨written, -, -⟩ := (configurationWrites h.block x y z).1 ((setupOpen_iff _).mp isOpen)
  rw [issue_next written]

theorem issue_cfgv_block {h : HostSide} (isOpen : setupOpen h.block = true) (x y z : Word) :
    (issue h (.cfgv x y z)).block =
      { h.block with timing := { h.block.timing with vSync := x, vBack := y, vVisible := z }, result := none } := by
  obtain ⟨-, written, -⟩ := (configurationWrites h.block x y z).1 ((setupOpen_iff _).mp isOpen)
  rw [issue_next written]

theorem issue_cfgf_block {h : HostSide} (isOpen : setupOpen h.block = true) (x y z : Word) :
    (issue h (.cfgf x y z)).block =
      { h.block with timing := { h.block.timing with vFront := x, vTotal := y, vScale := z }, result := none } := by
  obtain ⟨-, -, written⟩ := (configurationWrites h.block x y z).1 ((setupOpen_iff _).mp isOpen)
  rw [issue_next written]

/-- While setup is open the three operations write all nine registers, and nothing else (R204 to R207). -/
theorem InSetup.configureAll_block {c : Config} {h : HostSide} (inSetup : InSetup c h) (t : FrameTiming) :
    (Machine.configureAll t h).block = { h.block with timing := t, result := none } := by
  have afterCfgh : InSetup c (Machine.issue h (.cfgh t.hTotal t.hSyncEnd t.hDataStart)) :=
    inSetup.issue (by simp) (by simp)
  have afterCfgv : InSetup c (Machine.issue _ (.cfgv t.vSync t.vBack t.vVisible)) :=
    afterCfgh.issue (by simp) (by simp)
  rw [Machine.configureAll, issue_cfgf_block afterCfgv.isOpen, issue_cfgv_block afterCfgh.isOpen,
    issue_cfgh_block inSetup.isOpen]

/-! ## The start -/

/-- `START` with setup open answers the mask of failed checks. It starts the block or records the mask; the registers and the
store stay (R210, R295). -/
theorem exec_start_open {s : State} (isOpen : setupOpen s = true) :
    ∃ u, exec .start s = .next u ∧ u.timing = s.timing ∧ u.fb = s.fb ∧ u.cell = s.cell ∧ u.draw = s.draw ∧
      u.result = some (.word32 ((checkMask s.config.val s.timing).setWidth 32)) ∧
      (checkMask s.config.val s.timing = 0#5 → u.control.run = true) ∧
      (checkMask s.config.val s.timing ≠ 0#5 →
        u.control.run = false ∧ u.control.cfgErr = checkMask s.config.val s.timing) := by
  refine ⟨_, exec_start s, ?_⟩
  obtain ⟨closed, -⟩ | ⟨-, failed, whole⟩ | ⟨-, passed, whole⟩ := exec_start_cases (exec_start s)
  · simp [isOpen] at closed
  · rw [whole]
    exact ⟨rfl, rfl, rfl, rfl, rfl, fun passed => absurd passed failed, fun _ => ⟨((setupOpen_iff s).mp isOpen).1, rfl⟩⟩
  · rw [whole, passed]
    exact ⟨rfl, rfl, rfl, rfl, rfl, fun _ => rfl, fun failed => absurd rfl failed⟩

theorem readFb_congr {s t : State} (fb : t.fb = s.fb) (draw : t.draw = s.draw) : readFb t = readFb s := by
  funext y x; simp only [readFb, fb, draw]

theorem readCell_congr {s t : State} (cell : t.cell = s.cell) (draw : t.draw = s.draw) : readCell t = readCell s := by
  funext y x; simp only [readCell, cell, draw]

/-- Settles O54: `clear()` leaves the setup open and the store zero, then come the registers, then `START`. -/
theorem setupStartsTheBlock : Obligations.SetupStartsTheBlock := by
  intro s s0 t reset h
  obtain rfl := exec_reset_next.mp reset
  have cleared := (inSetup_reset s).clear
  obtain ⟨zeroFb, zeroCell, -, -⟩ := clearZeroesTheStore (hostStart (resetBlock s)) rfl rfl
  have configured := cleared.configureAll t
  have block := cleared.configureAll_block t
  obtain ⟨u, started, timing, fb, cell, draw, result, passed, failed⟩ := exec_start_open configured.isOpen
  have whole : h.block = u := congrArg HostSide.block (issue_next started)
  have inv := exec_keeps_inv configured.inv started
  rw [configured.params] at result passed failed
  rw [block] at timing fb cell draw result passed failed
  rw [got32, whole, result, readFb_congr fb draw, readCell_congr cell draw]
  exact ⟨timing, rfl, fun valid => ⟨passed valid, inv⟩, failed, zeroFb, zeroCell⟩

end Sys2Proof.Machine
end
